-- ==== Sys2Proof/Word.lean ====
section
/-! DEFINITION. The word types of the TV-7840 (00 R10, R11, Table 0-3), and the index types that name its blocks
(00 Table 0-2, 01 R26, R27). -/

namespace Sys2Proof

abbrev Byte := BitVec 8
abbrev Half := BitVec 16
abbrev Word := BitVec 32
abbrev DWord := BitVec 64

/-- A 64-byte entry or record; byte i holds bits [8i+7:8i] (00 R11). -/
abbrev Rec64 := BitVec 512

/-- A logical spindle 0 to 127, numbered 8h + k (01 R27). -/
abbrev Spindle := BitVec 7
/-- A Parsal core: 0 to 127 are the spindle controllers by logical spindle, 128 to 131 the distaff cores. -/
abbrev CoreId := Fin 132
/-- A physical spindle position, window 9h + p (01 R30). -/
abbrev PosId := Fin 144
abbrev PartId := BitVec 4
abbrev HankId := BitVec 6
abbrev HoopId := BitVec 4
abbrev QueueId := BitVec 16
/-- A stream context index, 0 to 262,143 (02 R96). -/
abbrev CtxId := BitVec 18
/-- A logical Ethernet port, 0 to 31 (15 R444). -/
abbrev PortId := BitVec 5
/-- An HBM granule, 0 to 1,535 (05 R188). -/
abbrev GranId := Fin 1536
abbrev StackId := BitVec 2
/-- An HBM pseudo-channel, 0 to 127 (01 R31). -/
abbrev ChanId := BitVec 7
/-- A general register g0 to g31 or a vector register v0 to v31 (08 R266, 03 R144). -/
abbrev RegId := BitVec 5
abbrev SegId := BitVec 3
abbrev SlotId := BitVec 4

end Sys2Proof
end

