-- ==== Sys2Proof/Syntax.lean ====
section
/-! DEFINITION. The commands of the block: one constructor of Instr for each row of spec/opcode_table.json, with the
row's operands. A physical outcome that no rule fixes (a check that fails, a self-test's result, a temperature, what
firmware chooses) is an operand of the command that meets it. -/

namespace Sys2Proof

/-- A function of the endpoint: the physical function or VFp (07 R239). -/
inductive Fn where
  | pf
  | vf (p : PartId)
deriving DecidableEq, Repr

/-- The path a dictionary access comes through (16 R475, 15 R443). -/
inductive Path where
  | zmp
  | pf
  | vf (p : PartId)
deriving DecidableEq, Repr

/-- A master port of the device (05 R203, Table 5-13). -/
inductive Master where
  | distaff (c : BitVec 2)
  | hc (s : Spindle)
  | hs (s : Spindle)
  | pcie (f : Fn)
  | dbg
deriving DecidableEq, Repr

/-- What the check bits of data read from scratch, HBM or the context store say (05 R177, R189, 06 R236). -/
inductive DataCheck where
  | ok
  | corrected
  | uncorrectable
deriving DecidableEq, Repr

/-- A report on the data of one access of a step: the element, its operand (0 a, 1 b, 2 c), and which of the element's accesses
in that operand (the points and twiddles of a butterfly, the parts of a dot product, in order). -/
structure ElemReport where
  elem : BitVec 25
  operand : BitVec 2
  part : BitVec 3
  chk : DataCheck
deriving DecidableEq, Repr

/-- What the check bits of the elements of one step say: the accesses whose data is not good. -/
abbrev ElemCheck : Type := List ElemReport

/-- What the check bits of a bobbin's words say when they are read (06 R213, R214): the words with a single-bit error, the
payload words with a worse one that is detected, and whether the link word fails. -/
structure CellCheck where
  single : BitVec 4
  worse : BitVec 3
  link : Bool
deriving DecidableEq, Repr

/-- Every word of the cell is good. -/
def CellCheck.ok : CellCheck := ⟨0, 0, false⟩

/-- What the sweep of a BROKEN queue meets (06 R211, R214): the allocated cells whose link words fail, and whether the allocation
bitmap or the free set does. -/
structure SweepCheck where
  links : List (BitVec 19)
  pool : Bool
deriving DecidableEq, Repr

/-- What a descriptor of a shuttle reads uncorrectable (13 R394): nothing, the descriptor itself, or the source byte at an
offset. -/
inductive ShCheck where
  | ok
  | fetch
  | data (at_ : BitVec 24)
deriving DecidableEq, Repr

/-- What the check bits of the context store say at a dispatch or a commit (06 R236). -/
inductive StoreCheck where
  | ok
  | corrected
  | contextBad
  | prickingBad
deriving DecidableEq, Repr

/-- What the check bits say in one step of a VOP: of its elements, of the cell it pops, and of the elements of the steps that end
with it in other slots (03 R139). -/
structure StepCheck where
  data : ElemCheck
  cell : CellCheck
  rest : List (SlotId × ElemCheck) := []
deriving DecidableEq, Repr

/-- What the check bits say while a shuttle runs a descriptor: a word of the descriptor itself was corrected, the offsets of the
source words that were, and the cells it popped. -/
structure MoveCheck where
  fetch : Bool
  corrected : List (BitVec 24)
  pops : List CellCheck
deriving DecidableEq, Repr

/-- What stops a shuttle's descriptor, and what the check bits say of what it read and popped until then. -/
structure HaltCheck where
  stop : ShCheck
  move : MoveCheck
deriving DecidableEq, Repr

def HaltCheck.ok : HaltCheck := ⟨.ok, ⟨false, [], []⟩⟩
def HaltCheck.fetch : HaltCheck := ⟨.fetch, ⟨false, [], []⟩⟩

/-- What the check bits say in an access on the control matrix: of the data it reads, and of the cell that a pop through a queue
window reads. -/
structure AccessCheck where
  data : DataCheck
  cell : CellCheck
deriving DecidableEq, Repr

def AccessCheck.ok : AccessCheck := ⟨.ok, .ok⟩

/-- What the check bits say when an untimed frame starts: of its item's cell, and of its bytes. -/
structure FrameCheck where
  cell : CellCheck
  data : DataCheck
deriving DecidableEq, Repr

def FrameCheck.ok : FrameCheck := ⟨.ok, .ok⟩

/-- An operand of a command, and what the check bits report of the data that the command reads (log entry 6). A Bool says that
a link word fails. -/
structure Checked (α β : Type) where
  val : α
  chk : β
deriving DecidableEq, Repr

/-- A data transfer on the control matrix or on a core's own path: a read, or a write of little-endian bytes, 256 of them at most
(05 R204). -/
inductive BusOp where
  | read
  | write (data : BitVec 2048)
deriving DecidableEq, Repr

inductive ImmOp where
  | addi | andi | ori | xori | clti | cltui
deriving DecidableEq, Repr

inductive MulOp where
  | mul | mulxSS | mulxUU | mulxSU | mul32
deriving DecidableEq, Repr

inductive DqrOp where
  | dqrS | dqrU | dqr32S | dqr32U
deriving DecidableEq, Repr

inductive BranchOp where
  | eq | ne | lt | ge | lo | hs
deriving DecidableEq, Repr

inductive LdOp where
  | b | bu | h | hu | w | wu | d
deriving DecidableEq, Repr

inductive StOp where
  | b | h | w | d
deriving DecidableEq, Repr

/-- The two SKIP majors (08 R282): 0x0C compares two registers, 0x0D tests one bit. -/
inductive SkipForm where
  | cmp (cc : BitVec 4) (rs1 rs2 : RegId)
  | bit (cc : BitVec 4) (rs1 : RegId) (n : BitVec 6)
deriving DecidableEq, Repr

/-- What governor firmware chooses at an adaptation frame boundary (02 R98). Each choice is tested against R97. -/
inductive AdaptChoice where
  | nothing
  | stepChange (step : BitVec 2)
  | migrate (c : CtxId) (dest : Spindle)
  | hankRetention (h : HankId) (retain : Bool)
  | spindleOff (s : Spindle) (off : Bool)
deriving DecidableEq, Repr

/-- A target of the control matrix that accepts locked sequences (05 R207). -/
inductive LockTarget where
  | contextStore
  | poolView
deriving DecidableEq, Repr

/-- A received Ethernet frame, from destination address to the end of the payload (15 R445, R446). -/
structure RxFrame where
  /-- ingress timestamp, TIME ns, as the port's clock takes it: the mode's fixed latency and RX_LAT_ADJ are not yet applied -/
  ts : BitVec 64
  bytes : List Byte
  fcsOk : Bool
deriving DecidableEq, Repr

/-- A frame received on the management port (16 R455): its EtherType, its payload, and whether its FCS is good. -/
structure MgmtFrame where
  etype : BitVec 16
  bytes : List Byte
  fcsOk : Bool
deriving DecidableEq, Repr

/-- How an NMT command arrives (16 R471). -/
inductive NmtVia where
  | broadcast
  | unicast (src : Byte) (seq : Half)
  | localWrite (path : Path)
deriving DecidableEq, Repr

/-- A host snoop of CXL.cache (15 R431): the requests of the CXL 2.0 protocol that reach a device's cache. -/
inductive SnoopKind where
  | data
  | inv
  | cur
deriving DecidableEq, Repr

/-- What start-up meets that the manual leaves to the board and the parts (17 Table 17-3). -/
structure StartupInputs where
  /-- the PLL that has not locked by 2 ms (0 disciplined, 1 CORE, 2 TIME, 3 + n HBMn), if any -/
  pllFailed : Option (BitVec 3)
  /-- pseudo-channels that fail training -/
  chanFailed : BitVec 128
  /-- the stack whose controller or PHY fails, if any -/
  stackFailed : Option StackId
  firmwareOk : Bool
  /-- FLASH_SIZE, KiB; 0 when no flash answers -/
  flashKiB : Word
  /-- the level of ADDR_STRAP when it is sampled (16 R458) -/
  strap : BitVec 5
  /-- positions that fail the start-up tests -/
  posFailed : BitVec 144
deriving DecidableEq, Repr

/-- The commands of the block, one constructor per row of spec/opcode_table.json (the map from constructors to rows is
LAWS.json). -/
inductive Instr where
  -- 02 streams and dispatch
  /-- OPEN: the governor reads an entry of partition p's admission ring. -/
  | openStream (p : PartId) (entry : Rec64)
  | closeStream (p : PartId) (entry : Rec64)
  | forceClose (p : PartId) (entry : Rec64)
  | resumeStream (p : PartId) (entry : Rec64)
  | releaseEvent (c : CtxId)
  | skeinReady (k : Spindle)
  | heldRelease (c : CtxId)
  | lateWindowExpiry (c : CtxId)
  /-- DISPATCH: chk: what the check bits of the context and the pricking say. -/
  | dispatch (k : Spindle) (chk : StoreCheck)
  | save (k : Spindle)
  | budgetExpiry (k : Spindle)
  | skeinAbort (k : Spindle)
  | commit (k : Checked Spindle StoreCheck)
  | parkedCommitComplete (q : QueueId)
  | adaptFrameBoundary (choices : List AdaptChoice)
  | spareReplacement (k : Spindle)
  | spareReadbackEnd (k : Spindle) (match_ : Bool)
  | stepForbid (path : Path) (v : Byte)
  | statReset (path : Path) (v : Byte)
  -- 03 vector operations
  | vopIssue (k : Spindle) (opc : BitVec 10) (d a b e : SlotId)
  /-- VOP_STEP: chk: what the check bits of the step's data and of a popped cell say. -/
  | vopStep (k : Spindle) (slot : SlotId) (chk : StepCheck)
  | vopDone (k : Spindle) (slot : SlotId)
  | vwait (k : Spindle) (rd : RegId) (slot : SlotId)
  | vwaitAll (k : Spindle)
  | vresume (k : Spindle)
  | vdiscard (k : Spindle)
  | mfc0 (k : Spindle) (rd : RegId) (cr : RegId) (h : Bool)
  | mtc0 (k : Spindle) (rs1 : RegId) (cr : RegId) (h : Bool)
  -- 05 memory and fabric
  /-- HBM_REQUEST_SERVICE: entry e of the spindle's requests, oldest first; chk: what the check bits of its data say. -/
  | hbmRequestService (k : Spindle) (e : BitVec 5) (chk : DataCheck)
  | hbmFrameBoundary (k : StackId)
  | hbmTempRead (k : StackId) (temp : Byte)
  | swap (k : StackId)
  | matrixAccess (m : Master) (addr : DWord) (size : BitVec 9) (op : Checked BusOp AccessCheck)
  | lockedSequence (m : Master) (addr : DWord) (beats : BitVec 5) (op : Checked BusOp DataCheck)
  | lockBreak (t : LockTarget)
  | handover (h : HankId) (v : Word)
  | scrubFlagWrite (h : HankId) (v : Word)
  | scrubNow (h : HankId)
  | handoverBoundary (h : HankId)
  | heldScrubStart (h : HankId)
  | scrubEnd (h : HankId)
  | hankPwr (h : HankId) (req : BitVec 2)
  | hankPowerTransitionEnd (h : HankId)
  | owner (path : Path) (h : HankId) (v : Byte)
  | fabricHoop (path : Path) (h : HankId) (v : Byte)
  | scrubOnHandover (path : Path) (h : HankId) (v : Byte)
  | enable (path : Path) (r : Byte) (v : Byte)
  | pcRetired (path : Path) (hi : Bool) (v : DWord)
  | granOwn (g : GranId) (v : Word)
  | granuleZeroingEnd (g : GranId)
  -- 06 queues
  | push (m : Master) (q : QueueId) (item : Rec64)
  | pop (m : Master) (q : QueueId) (chk : CellCheck)
  | mark (m : Master) (q : QueueId)
  | rewind (m : Master) (q : QueueId)
  | release (m : Master) (q : QueueId) (n : Checked (BitVec 20) Bool)
  | flush (m : Master) (q : Checked QueueId Bool)
  | status (m : Master) (q : QueueId)
  | create (q : QueueId)
  | delete (q : Checked QueueId Bool)
  | brokenSweepEnd (q : Checked QueueId SweepCheck)
  | encreq (r : PartId) (v : Bool)
  | regionScrub (r : PartId)
  | regionScrubEnd (r : Checked PartId (List (BitVec 19 × CellCheck)))
  | boot (v : Bool)
  | fciChange (n : SegId) (v : Bool)
  | frameReceive (port : PortId) (f : RxFrame)
  /-- TIMED_LAUNCH: readLate: the frame's scratch read has not ended by its launch time. -/
  | timedLaunch (port : PortId) (readLate : Checked Bool DataCheck)
  | untimedFrameStart (port : Checked PortId FrameCheck)
  -- 07 partitions
  | modeReq (path : Path) (p : PartId) (v : Byte)
  | transitionStart (p : PartId)
  | modeChanged (p : PartId)
  | partitionTableWrite (path : Path) (p : PartId) (sub : Byte) (bytes : List Byte)
  | patternCard (path : Path) (k : Spindle) (bytes : List Byte)
  | cardFrameStart (k : Spindle)
  | cardEntryStart (k : Spindle)
  | replayContext (path : Path) (p : PartId) (v : Word)
  -- 08 Parsal integer and control
  /-- INTEGER_ALU: any instruction word that no other row names, major 0x00 among them. -/
  | integerAlu (c : CoreId) (w : Word)
  | addi (c : CoreId) (op : ImmOp) (rd rs1 : RegId) (imm : Half)
  | shli (c : CoreId) (kind : BitVec 2) (h32 : Bool) (rd rs1 : RegId) (amt : BitVec 6)
  | liZ (c : CoreId) (rd : RegId) (h : BitVec 2) (imm : Half)
  | liK (c : CoreId) (rd : RegId) (h : BitVec 2) (imm : Half)
  | addpc (c : CoreId) (rd : RegId) (imm : BitVec 21)
  | mul (c : CoreId) (op : MulOp) (rd rs1 rs2 : RegId)
  | dqr (c : CoreId) (op : DqrOp) (rd rs1 rs2 : RegId)
  | dqrResult (c : CoreId)
  | bfx (c : CoreId) (kind : BitVec 2) (rd rs1 : RegId) (lenM1 pos : BitVec 6)
  | permb (c : CoreId) (rd rs1 rs2 : RegId)
  | branch (c : CoreId) (op : BranchOp) (rs1 rs2 : RegId) (disp : Half)
  | jmp (c : CoreId) (disp : BitVec 26)
  | call (c : CoreId) (disp : BitVec 26)
  | jr (c : CoreId) (rd rs1 : RegId) (imm : Half)
  | skipCc (c : CoreId) (f : SkipForm)
  /-- LD: chk: what the check bits of its data say. -/
  | ld (c : CoreId) (op : LdOp) (rd rs1 : RegId) (seg : SegId) (off : BitVec 13) (chk : DataCheck)
  | st (c : CoreId) (op : StOp) (rs rs1 : RegId) (seg : SegId) (off : BitVec 13)
  | storeBufferWrite (c : CoreId)
  | deviceLoadReturn (c : CoreId)
  | impreciseBusError (c : CoreId)
  | icacheRefill (c : Checked CoreId DataCheck)
  | lr (c : CoreId) (dbl : Bool) (rd rs1 : RegId) (seg : Checked SegId DataCheck)
  | sc (c : CoreId) (dbl : Bool) (rd rs1 rs2 : RegId) (seg : SegId)
  | tas (c : CoreId) (rd rs1 : RegId) (seg : Checked SegId DataCheck)
  /-- REP_MOV: broken: the lock breaks after that many beats, if it does. -/
  | repMov (c : CoreId) (rc ra rb : RegId) (sseg dseg : SegId) (size : BitVec 2) (lock : Bool) (broken : Checked (Option (BitVec 4)) DataCheck)
  | repFill (c : CoreId) (rc ra rb : RegId) (sseg dseg : SegId) (size : BitVec 2)
  | repCmp (c : CoreId) (rc ra rb : RegId) (sseg dseg : SegId) (size : Checked (BitVec 2) (DataCheck × DataCheck))
  | repFind (c : CoreId) (rc ra rb : RegId) (sseg dseg : SegId) (size : Checked (BitVec 2) DataCheck)
  | sync (c : CoreId)
  | syncI (c : CoreId)
  | retx (c : CoreId)
  | scall (c : CoreId)
  | brk (c : CoreId)
  | wfi (c : CoreId)
  | kend (c : CoreId)
  | kabort (c : CoreId)
  | mfsr (c : CoreId) (rd : RegId) (sr : BitVec 10)
  | mtsr (c : CoreId) (rs1 : RegId) (sr : BitVec 10)
  | floatingPoint (c : CoreId) (k : BitVec 5) (dbl : Bool) (rd rs1 rs2 : RegId)
  | ffma (c : CoreId) (kind : BitVec 2) (dbl : Bool) (rd rs1 rs2 rs3 : RegId)
  | fpResult (c : CoreId) (rd : RegId)
  | shortVectorAlu (c : CoreId) (func : BitVec 6) (sat : Bool) (vd va vb : RegId)
  | shortVectorMultiply (c : CoreId) (func : BitVec 4) (qshift : BitVec 6) (sat : Bool) (vd va vb : RegId)
  | vld (c : CoreId) (vd rs1 : RegId) (seg : SegId) (off : Checked (BitVec 11) ElemCheck)
  | vst (c : CoreId) (vd rs1 : RegId) (seg : SegId) (off : BitVec 11)
  | vldx (c : CoreId) (vd rs1 : RegId) (seg : SegId) (ix : Checked RegId ElemCheck)
  | vstx (c : CoreId) (vd rs1 : RegId) (seg : SegId) (ix : RegId)
  | setvl (c : CoreId) (rd rs1 : RegId) (ty : RegId) (ply : BitVec 2)
  | qpush (c : CoreId) (rd rq rs2 : RegId) (seg : Checked SegId DataCheck)
  | qpop (c : CoreId) (rd rq rs2 : RegId) (seg : SegId) (chk : CellCheck)
  | qmark (c : CoreId) (rd rq : RegId)
  | qrewind (c : CoreId) (rd rq : RegId)
  | qrelease (c : CoreId) (rd rq rs2 : RegId) (seg : Checked SegId Bool)
  | qflush (c : CoreId) (rd : RegId) (rq : Checked RegId Bool)
  | qstat (c : CoreId) (rd rq : RegId)
  | ckrd (k : Spindle) (rd : RegId)
  | ckwr (k : Spindle) (rs1 : RegId)
  | ckpoly (k : Spindle) (poly : BitVec 2)
  | ckupd (k : Spindle) (rs1 : RegId) (nM1 : BitVec 3)
  | ckalive (k : Spindle) (rd rs1 : RegId)
  -- 12 interrupts
  | interruptDelivery (c : CoreId)
  | l1HoldoffExpiry (w : PosId) (g : SegId)
  | l1Set (w : PosId) (v : DWord)
  | l1Clr (w : PosId) (v : DWord)
  | l1Evt (w : PosId)
  | claim (k : BitVec 2)
  | complete (k : BitVec 2) (n : BitVec 12)
  | l2Set (w : BitVec 6) (v : DWord)
  | l2HoldoffExpiry (g : BitVec 6)
  | msixUnmask (f : Fn) (vec : BitVec 7)
  -- 13 shuttles
  | arm (h : HoopId) (ch : SegId) (v : DWord)
  | background (h : HoopId) (ch : SegId) (v : DWord)
  | disarm (h : HoopId) (ch : SegId) (v : DWord)
  | listStart (h : HoopId) (ch : SegId)
  | descriptorComplete (h : HoopId) (ch : Checked SegId MoveCheck)
  | shuttleHalt (h : HoopId) (ch : SegId) (chk : HaltCheck)
  | shuttleStop (h : HoopId) (ch : SegId)
  | shuttleResume (h : HoopId) (ch : SegId)
  | shuttleSkip (h : HoopId) (ch : Checked SegId DataCheck)
  | shuttleAbandon (h : HoopId) (ch : SegId)
  -- 14 time
  | tbFreq (v : Word)
  | tbSlew (v : Word)
  | slewEnd
  | stepTb
  | ppsIn (level : Bool)
  | ppsOutRise
  | ppsOutFall
  | timerTick (p n : PartId)
  | immediate (p n : PartId) (v : Word)
  | tmCnt (p n : PartId) (v : Word)
  | tmbStart (p : PartId) (v : Word)
  | tmbAtReached (p : PartId)
  -- 15 host and network
  | vfFlr (p : PartId)
  | pfFlr
  | hdmCommit (d : PartId) (base count : BitVec 12)
  | cxlMemAccess (addr : DWord) (op : Checked BusOp DataCheck)
  | ringEnable (p : PartId) (r : StackId) (v : DWord)
  | ringPi (p : PartId) (r : StackId) (v : BitVec 17)
  | ringCi (p : PartId) (r : StackId) (v : BitVec 17)
  | qcreate (p : PartId) (entry : Rec64)
  | qdelete (p : PartId) (entry : Rec64)
  | qgroup (p : PartId) (entry : Rec64)
  | qnote (p : PartId) (entry : Rec64)
  | qmsix (p : PartId) (entry : Rec64)
  | qegress (p : PartId) (entry : Rec64)
  | pricking (p : PartId) (entry : Rec64)
  | ruleAdd (p : PartId) (entry : Rec64)
  | ruleDel (p : PartId) (entry : Rec64)
  | l1cfg (p : PartId) (entry : Rec64)
  | spindleDoorbell (p : PartId) (k : Spindle)
  | mailboxRead (f : Fn) (idx : Half) (sub : Byte)
  | mailboxWrite (f : Fn) (idx : Half) (sub : Byte) (bytes : List Byte)
  -- 16 management
  | zmpFrameReceive (f : MgmtFrame)
  | read (src : Byte) (seq : Half) (idx : Half) (sub : Byte)
  | write (src : Byte) (seq : Half) (idx : Half) (sub : Byte) (bytes : List Byte)
  | blockRead (src : Byte) (seq : Half) (idx : Half) (sub : Byte) (off : Word) (len : Half)
  | blockWrite (src : Byte) (seq : Half) (idx : Half) (sub : Byte) (off total : Word) (bytes : List Byte)
  | blockSessionTimeout (src : Byte)
  | start (via : NmtVia)
  | stop (via : NmtVia)
  | enterPreop (via : NmtVia)
  | resetNode (via : NmtVia)
  | resetComm (via : NmtVia)
  | detach (via : NmtVia)
  | assignOffer (session : Byte) (addr : Byte)
  | assignResponse
  | assignConfirm (session : Byte) (addr : Byte)
  | assignAcknowledgement
  | chainIn (level : Bool)
  | plcaBeacon
  | plcaTimeout
  | transmitOpportunity (id : Byte)
  | emcyRepeat (code : Half)
  | emcyAck (path : Path) (code : Half)
  | notify (slot : Byte)
  | heartbeat
  | store (path : Path) (bytes : List Byte) (verified : Bool)
  | restoreDefaults (path : Path) (bytes : List Byte)
  | go (path : Path) (k : Byte) (v : Byte)
  -- 17 reset, power, faults
  | powerOnReset (level : Bool)
  | brownOut (rail : PartId)
  | resetN (level : Bool)
  | perstN (level : Bool)
  | startup (inp : StartupInputs)
  | initEnd
  | resetPartition (path : Path) (v : Byte)
  | spindleReset (w : PosId)
  | positionPower (w : PosId) (off : Bool)
  | positionBist (w : PosId)
  | outOfService (k : Spindle)
  | standby (path : Path)
  | standbyExit (path : Path)
  | supplyWarning (rail : SegId)
  | supplyRecovery (rail : SegId)
  | holdoffEnd
  | temperatureSample (temps : List (BitVec 16))
  | kick (k : BitVec 2)
  | watchdogExpiry (k : BitVec 2)
  | fatalRecordWrite
  | errClear (path : Path) (key : Word)
  | recordClear (path : Path) (key : Word)
  | testGo (path : Path) (v : Byte)
  | liveTestEnd (unit : Byte) (inst : Half) (pass : Bool) (detail : Word)
  | liveTestRound
  | mcodePatch (path : Path) (bytes : List Byte)
  | rcFieldRead (m : Master) (addr : DWord)
  | registerWrite (m : Master) (addr : DWord) (size : BitVec 7) (v : DWord)
  | pllLostLock (pll : SegId)
  | dieToDieLinkFailure (link : Byte)
  | hbmStackFailure (k : StackId)
  | recoveredClockFailure
  | ethernetLinkChange (port : PortId) (up : Bool)
  | pcieLinkChange (width speed mode : Byte)
  | cxlHostSnoop (k : SnoopKind) (addr : DWord)
  | hostReadCompletion (tag : Half) (data : Option Rec64)
deriving DecidableEq, Repr

end Sys2Proof
end

