-- ==== Sys2Proof/Decode.lean ====
section
/-! DEFINITION. The block takes commands, not words: no row of the command table gives bits, so no word spells a command. -/

namespace Sys2Proof

/-- The command that a word of nbits bits spells by the command table: the table gives no row bits, so none. -/
def decodeTableWord (_nbits _w : Nat) : Option Instr := none

end Sys2Proof
end

