-- ==== Sys2Proof/Config.lean ====
section
/-! DEFINITION. What the manual leaves open: constants without a body, which nothing in Lean can evaluate. Those of the
first group are applied to the counter State.clock.free, so that each use is a fresh value; the others to what they
depend on. Each is named in notes/assumptions. -/

namespace Sys2Proof

/-- A value the manual does not state, fresh for each n. -/
opaque Config.freeWord : Nat → DWord

/-- What the host returns for a byte of its memory at an address, at read n (05 Table 5-1, host memory window). -/
opaque Config.hostByte : Nat → Nat → Byte

/-- What a byte of the firmware image's range of HBM holds until something is written there (17 Table 17-3). -/
opaque Config.firmwareByte : Nat → Byte

/-- How far a hoop's timebase mirror trails the timebase at a TB value (01 R41 bounds it). -/
opaque Config.mirrorLag : Nat → Nat → Nat

/-- Which of the FREE contexts a new stream receives, of the number there are (02 R74 leaves it open). -/
opaque Config.contextChoice : Nat → Nat

/-- The cell that allocation n of the bobbin pool receives (06 R211 leaves it open). -/
opaque Config.cellOf : Nat → Nat

/-- The ROM of the vector sequencer (11 Table 11-1), which the manual does not list: START and RESUME per OPC, the microwords by
address and the nano-words by index. -/
opaque Config.romStart : Nat → BitVec 13
opaque Config.romResume : Nat → BitVec 13
opaque Config.romMicro : Nat → BitVec 16
opaque Config.romNano : Nat → BitVec 192

/-- Whether the ECDSA signature of a microcode patch or an image verifies against the key in ROM (11 R351). -/
opaque Config.signatureOk : List Byte → Bool

/-- The type code of a stored record of an entry, by index × 256 + sub-index (16 R476 names the byte and no code). -/
opaque Config.typeCode : Nat → Byte

/-- Factory values: identity and calibration entries (16), by index and sub-index. -/
opaque Config.factory : Nat → Nat → Nat

/-- What the PTP servo reports in entry 0x2140.n at a TIME cycle (15 Table 15-11). -/
opaque Config.servo : Nat → Nat → Nat

/-- The fixed receive latency of a port in PORT_MODE m, ns (15 R445). -/
opaque Config.rxLatency : Nat → Nat

/-- The fixed transmit latency of a port in PORT_MODE m, ns (15 R445). -/
opaque Config.txLatency : Nat → Nat

/-- Whether host address a lies in the range that function fn's MSI-X messages may go to (12 R383). -/
opaque Config.msixPermits : Nat → Nat → Bool

/-- Whether the last message of vector vec of function fn still waits in the endpoint at a TIME cycle (12 R383). -/
opaque Config.msixWaits : Nat → Nat → Nat → Bool

/-- CORE_ID[19:16] of a spindle that no partition holds (08 Table 8-1 states none). -/
opaque Config.noPartition : Nat → Nat

end Sys2Proof
end

