-- ==== Sys2Proof/Machine/Bits.lean ====
section
/-! DEFINITION. Bit fields, sign extension and little-endian byte strings (00 R10, R11). -/

namespace Sys2Proof.Machine

/-- Bits [lo+n-1:lo] of a number. -/
def fld (x lo n : Nat) : Nat := x / 2 ^ lo % 2 ^ n

/-- The number x with bits [lo+n-1:lo] replaced by the low n bits of v. -/
def setFld (x lo n v : Nat) : Nat := x - fld x lo n * 2 ^ lo + v % 2 ^ n * 2 ^ lo

/-- Bit i of a number. -/
def bitOf (x i : Nat) : Bool := x / 2 ^ i % 2 = 1

/-- A field of a bit vector, as a number. -/
def bvFld {w : Nat} (x : BitVec w) (lo n : Nat) : Nat := fld x.toNat lo n

/-- A bit vector with a field replaced. -/
def bvSet {w : Nat} (x : BitVec w) (lo n v : Nat) : BitVec w := BitVec.ofNat w (setFld x.toNat lo n v)

/-- The value of an n-bit field read as two's complement. -/
def sextNat (n x : Nat) : Int := if x % 2 ^ n < 2 ^ (n - 1) then ((x % 2 ^ n : Nat) : Int) else ((x % 2 ^ n : Nat) : Int) - 2 ^ n

/-- Sign extension of the low n bits of x to 64 bits. -/
def sext64 (n x : Nat) : DWord := BitVec.ofInt 64 (sextNat n x)

/-- One bit as a number. -/
def b2n (b : Bool) : Nat := if b then 1 else 0

/-- Little-endian bytes: the byte at the lowest address holds bits [7:0] (R11). -/
def bytesOfNat : Nat → Nat → List Byte
  | 0, _ => []
  | n + 1, x => BitVec.ofNat 8 x :: bytesOfNat n (x / 256)

/-- The number a little-endian byte string spells (R11). -/
def natOfBytes : List Byte → Nat
  | [] => 0
  | b :: r => b.toNat + 256 * natOfBytes r

/-- Big-endian bytes (the order of network protocol fields). -/
def natOfBytesBE (l : List Byte) : Nat := l.foldl (fun a b => a * 256 + b.toNat) 0

/-- Ceiling of a quotient (R11's pseudocode ceil). -/
def ceilDiv (a b : Nat) : Nat := if b = 0 then 0 else (a + b - 1) / b

/-- Leading zeros of x in a width of w bits. -/
def clzNat : Nat → Nat → Nat
  | 0, _ => 0
  | w + 1, x => if bitOf x w then 0 else 1 + clzNat w x

/-- The number of one bits among the low w bits of x. -/
def popcount : Nat → Nat → Nat
  | 0, _ => 0
  | w + 1, x => b2n (bitOf x w) + popcount w x

/-- The lowest i below w, from i upward, for which bit i of x is 1. -/
def lowestBit (w x : Nat) : Option Nat := (List.range w).find? fun i => bitOf x i

/-- All ones when b, else 0: the form compares write (08 R276). -/
def allOnes64 (b : Bool) : DWord := if b then BitVec.allOnes 64 else 0

end Sys2Proof.Machine
end

