-- ==== Sys2Proof/Machine/Tab.lean ====
section
/-! DEFINITION. Sparse tables in one canonical form: keys strictly rising, and no entry equal to what an unlisted key
reads as. Every repeated block of the device (cores, contexts, queues, memory bytes) is held in one of these, so that
equal contents are equal data. -/

namespace Sys2Proof.Machine

/-- A sparse table from numbers to values. -/
abbrev Tab (α : Type) := List (Nat × α)

/-- The value at key k; d is what an unlisted key reads as. -/
def tabGet {α : Type} (d : α) : Tab α → Nat → α
  | [], _ => d
  | (j, v) :: r, k => if j = k then v else tabGet d r k

/-- Remove key k. -/
def tabDel {α : Type} (t : Tab α) (k : Nat) : Tab α := t.filter fun e => e.1 ≠ k

/-- List key k with value v. -/
def tabIns {α : Type} : Tab α → Nat → α → Tab α
  | [], k, v => [(k, v)]
  | (j, w) :: r, k, v => if j = k then (k, v) :: r else if k < j then (k, v) :: (j, w) :: r else (j, w) :: tabIns r k v

/-- Write key k: a value equal to the default removes the entry. -/
def tabSet {α : Type} [DecidableEq α] (d : α) (t : Tab α) (k : Nat) (v : α) : Tab α :=
  if v = d then tabDel t k else tabIns t k v

/-- Every listed key is above b, keys rise strictly, and no entry equals the default dk of its key. -/
def tabWfAbove {α : Type} [DecidableEq α] (dk : Nat → α) (b : Option Nat) : Tab α → Bool
  | [] => true
  | (j, v) :: r => (match b with | none => true | some m => decide (m < j)) && decide (v ≠ dk j) && tabWfAbove dk (some j) r

/-- The canonical form of a table with defaults dk. -/
def tabWf {α : Type} [DecidableEq α] (dk : Nat → α) (t : Tab α) : Bool := tabWfAbove dk none t

/-- Every entry through f: entries that become the default leave the list. -/
def tabMap {α : Type} [DecidableEq α] (d : α) (f : α → α) (t : Tab α) : Tab α :=
  (t.map fun e => (e.1, f e.2)).filter fun e => e.2 ≠ d

/-- The listed keys whose value satisfies p. -/
def tabKeys {α : Type} (p : α → Bool) (t : Tab α) : List Nat := (t.filter fun e => p e.2).map Prod.fst

end Sys2Proof.Machine
end

