-- ==== Sys2Proof/Machine/State.lean ====
section
/-! DEFINITION. The state of the block: every register, buffer, queue, counter, mode and pin the manual gives the
device, as plain data, and the queue of waiting commands. Registers that software reads and writes whole are bit
vectors; repeated blocks are sparse tables (Machine/Tab.lean) whose unlisted entries are at reset. -/

namespace Sys2Proof.Machine
open Sys2Proof

/-! ## Clocks and model fields -/

/-- The clocks of the device (00 Table 0-4, 01 R38 to R41, 04 R152, 14 R405). -/
structure Clock where
  /-- CORE step in force, 0 to 3 (Table 0-4) -/
  step : BitVec 2 := 0
  /-- TIME cycles since power-on, which a step of TB does not move (14 R410; model's own) -/
  cycles : Nat := 0
  /-- a scheduled CORE step change and the boundary (TB ns) at which it was decided (02 R97) -/
  nextStep : Option (BitVec 2 × Nat) := none
  /-- u: CORE cycles since the hoops left reset (04 R152) -/
  u : Nat := 0
  /-- part of the current CORE cycle already elapsed, in fifths of a 4.8 GHz edge (model's own; 01 R38) -/
  phase : Nat := 0
  /-- adaptation frame boundaries passed (02 R98; model's own) -/
  frames : Nat := 0
  /-- index of the next free value (model's own: the constants of Config without a body are applied to it) -/
  free : Nat := 0
  /-- HBM requests issued so far: the order of their arrival at a controller (05 R195; model's own) -/
  arrivals : Nat := 0
deriving DecidableEq, Repr

/-! ## Parsal cores (08, 09, 12) -/

/-- The units whose operations complete out of order (09 R303). -/
inductive ResUnit where
  | divider | float | cp2
deriving DecidableEq, Repr

/-- An operation issued and not yet complete (09 R303): what it will write and which unit it holds. -/
structure PendRes where
  unit : ResUnit
  /-- holds the divide and square-root unit (R303) -/
  busy : Bool
  writes : List (RegId × DWord)
  /-- flags ORed into FSTAT on completion (10 R329) -/
  flags : Byte
  /-- u in the cycle in which a CP2 read completes (09 Table 9-4) -/
  due : Option Nat := none
deriving DecidableEq, Repr

/-- A device load whose request has left (09 R312, R315): the register it writes, and the response on its way. -/
structure OutLoad where
  op : LdOp
  rd : RegId
  addr : DWord
  /-- the response: data, or none for an error response -/
  resp : Option Nat
  /-- HBM units it still waits for (04 R163) -/
  waits : Nat := 0
deriving DecidableEq, Repr

/-- The lock buffer of a locked REP.MOV (08 R289). -/
structure LockBuf where
  /-- PC of the REP.MOV it belongs to -/
  at_ : DWord
  /-- source offset of its first byte -/
  base : DWord
  data : List Byte
deriving DecidableEq, Repr

/-- The core state that preemption saves and restores (08 R291, 12 R375). -/
structure Cpu where
  /-- g1 to g31 (R266); unlisted 0 -/
  g : Tab DWord := []
  /-- v0 to v31 (03 R144); unlisted 0 -/
  v : Tab (BitVec 128) := []
  pc : DWord := 0x8000000000000000
  /-- ST, Table 8-2 -/
  st : DWord := 1
  epc : DWord := 0
  est : DWord := 0
  ecause : DWord := 0
  eaddr : DWord := 0
  vbase : DWord := 0
  /-- FSTAT and FCTL, Table 8-3 -/
  fstat : DWord := 0
  fctl : DWord := 0x0C
  /-- SVL and VSTART, Table 3-14 -/
  svl : DWord := 0
  vstart : DWord := 0
  /-- segment registers, Table 8-5; unlisted 0 -/
  sgb : Tab DWord := [(0, 0x8000000000000000)]
  sgl : Tab DWord := [(0, 0x000700000001FFFF)]
  /-- the reservation's 32-byte granule (R286) -/
  resv : Option Nat := none
  lockBuf : Option LockBuf := none
  /-- address of the fetch line buffer's line (09 R307) -/
  lineBuf : Option (Nat × BitVec 512) := none
  /-- in-service record and exception depth (12 R370) -/
  inServ : Option (BitVec 6) := none
  xdepth : Byte := 0
  /-- an entry has been taken and no instruction fetched at its vector yet (12 R361) -/
  entered : Bool := false
  outLoad : Option OutLoad := none
deriving DecidableEq, Repr

/-- What the controller does (08 R290, 12 R361, R365, R369). -/
inductive RunState where
  | executing
  /-- the idle wait of R290 -/
  | idle
  /-- WFI waits (R365) -/
  | wfi
  /-- halted by a vector fault or the watchdog (R361, 17 R502) -/
  | halted
  /-- the position is powered off, or a distaff core is stopped in standby or under test (07 Table 7-5, 17 R492) -/
  | off
deriving DecidableEq, Repr

/-- One entry of the store buffer (09 R310): the memory key of its first byte, and its bytes. -/
structure StoreEnt where
  addr : Nat
  data : List Byte
deriving DecidableEq, Repr

/-- A Parsal core: a spindle controller (0 to 127) or a distaff core (128 to 131). -/
structure Core where
  cpu : Cpu := {}
  run : RunState := .idle
  /-- operations completing out of order, oldest first (09 R303) -/
  results : List PendRes := []
  /-- the store buffer, oldest first (09 R310) -/
  storeBuf : List StoreEnt := []
  /-- addresses of posted device stores that met an error response not yet raised, oldest first (12 R362) -/
  failed : List DWord := []
  /-- the instruction cache: for each set, its lines, most recently used first (09 R307) -/
  icache : Tab (List (Nat × BitVec 512)) := []
deriving DecidableEq, Repr

/-- Core k after reset (08 R266, Tables 8-1 to 8-5): a spindle controller waits for its dispatcher at S; a distaff core
runs governor firmware at M. -/
def Core.init (k : Nat) : Core :=
  if k < 128 then {} else { cpu := { st := 3 }, run := .executing }

/-! ## Interrupt controllers (12) -/

/-- A level 1 controller (Table 12-8). -/
structure L1 where
  pend : DWord := 0
  active : DWord := 0
  en : DWord := 0
  defer : DWord := 0xFFFFFFFFFFFFFFFE
  gdis : Bool := false
  /-- L1_HOLDg.HOLDOFF and REMAIN, cycles (CORE) -/
  hold : Tab Nat := []
  remain : Tab Nat := []
  /-- stream events not yet read through L1_EVT, oldest first: context and kind (at most 64) -/
  evt : List (Nat × Nat) := []
deriving DecidableEq, Repr

/-- The level 2 aggregator (Table 12-11). -/
structure L2 where
  /-- PRIO [3:0], CORE [5:4], EN [6] of each source -/
  src : Tab (BitVec 7) := []
  pend : Tab Bool := []
  active : Tab Bool := []
  /-- HOLDOFF in units of 64 ns, and the nanoseconds left -/
  hold : Tab Nat := []
  remain : Tab Nat := []
  thresh : Tab Nat := []
  gdis : Bool := false
  /-- the source selected for each core, its priority then and u when its selection began (R378) -/
  sel : Tab (Option (Nat × Nat × Nat)) := []
deriving DecidableEq, Repr

/-- One MSI-X table entry with its pending bit (12 R383, 15 R429). -/
structure Msix where
  addr : DWord := 0
  data : Word := 0
  mask : Bool := true
  pend : Bool := false
deriving DecidableEq, Repr

/-- The MSI-X control of a function. -/
structure MsixFn where
  enable : Bool := false
  fmask : Bool := false
deriving DecidableEq, Repr

/-! ## Microcode and the vector sequencer (03, 11) -/

/-- The microcode control of a position (11 Table 11-7). -/
structure Mc where
  pen : Bool := false
  lock : Bool := false
  patchId : Word := 0
  /-- MC_REDIR0 to 15 -/
  redir : Tab DWord := []
  /-- MC_DISP0 to 63 -/
  disp : Tab DWord := []
  /-- micro patch RAM, 512 words of 16 bits, and nano patch RAM, 128 words of 192 bits -/
  micro : Tab Nat := []
  nano : Tab Nat := []
deriving DecidableEq, Repr

/-- VPROG0.STATE (03 Table 3-8). -/
inductive VState where
  | free | queued | running | waiting | stopped | faulted | done
deriving DecidableEq, Repr

/-- A VOP slot (03 R102, R118). -/
structure VSlot where
  state : VState := .free
  opc : BitVec 10 := 0
  /-- the copied descriptors of roles d, a, b, c -/
  d : BitVec 128 := 0
  a : BitVec 128 := 0
  b : BitVec 128 := 0
  c : BitVec 128 := 0
  vlen : Nat := 0
  vparam : DWord := 0
  vfctl : DWord := 0
  elem : Nat := 0
  acc : DWord := 0
  aux : Nat := 0
  vflags : Byte := 0
  fcode : BitVec 4 := 0
  faddr : Nat := 0
  /-- the microprogram counter: START at issue, RESUME at VRESUME, and from there over the routine's words (11 R338, R346) -/
  upc : Nat := 0
  /-- the HBM units that the W port is gathering, oldest first, and the bytes written to them (04 R162) -/
  wbuf : List (Nat × List (Nat × Byte)) := []
  /-- HBM units with their bytes that wait for a request entry (04 R163) -/
  outq : List (Nat × List (Nat × Byte)) := []
  /-- bytes of its own sources that it has overwritten, as they were before (03 R136; model's own) -/
  snap : Tab (Option Byte) := []
  /-- QUEUED with a fault found at issue: VRESUME checks it again (03 R138; model's own) -/
  recheck : Bool := false
deriving DecidableEq, Repr

/-- A chain tap (03 R133 to R135): its producer and consumer slots and the elements it holds. -/
structure VTap where
  prod : Nat
  cons : Option Nat
  ety : Nat
  /-- VLEN of the producer (R134) -/
  vlen : Nat
  /-- index of the first element in the buffer -/
  first : Nat
  buf : List Rec64
deriving DecidableEq, Repr

/-- What an HBM request of a spindle belongs to (05 R193): a stream port (0 RA, 1 RB, 2 RC, 3 W) of a slot, an access of the
controller, or a trace unit of a stream (07 R258). -/
inductive HbmSrc where
  | port (slot port : Nat)
  | core
  | trace
deriving DecidableEq, Repr

/-- An outstanding HBM request of a spindle (04 R163): whom it serves and its 256-byte unit. -/
structure HbmReq where
  src : HbmSrc
  /-- context of the skein, none for a handler begun from the idle wait -/
  ctx : Option Nat
  /-- address / 256 -/
  block : Nat
  write : Bool
  /-- the bytes a write carries, by address -/
  data : List (Nat × Byte) := []
  /-- its place in the order of arrival (05 R195) -/
  stamp : Nat := 0
  /-- its skein has ended or its port has restarted: what returns is dropped (02 R59) -/
  dropped : Bool := false
deriving DecidableEq, Repr

/-- A block in a stream port's buffer (04 R153, R154, R163): a 256-byte unit as it was when it moved. -/
structure VBlock where
  slot : Nat
  port : Nat
  /-- address / 256 -/
  unit : Nat
  data : List Byte
  /-- HBM reported it uncorrectable (05 R189) -/
  bad : Bool
  /-- a step has taken it into the pipe's input: the port's buffer holds it no more (04 R154) -/
  taken : Bool := false
deriving DecidableEq, Repr

/-- The vector sequencer of a spindle: what preemption saves (03 R141). -/
structure Seqr where
  /-- SD0 to SD15 -/
  sd : Tab (BitVec 128) := []
  vlen : Nat := 0
  vparam : DWord := 0
  vfctl : DWord := 0x0C
  vfstat : DWord := 0
  vslotsel : Nat := 0
  /-- VOPs issued since the first dispatch, mod 16 (R102) -/
  next : Nat := 0
  halted : Bool := false
  slots : Tab VSlot := []
  taps : Tab (Option VTap) := []
  /-- blocks in the stream ports' buffers and the twiddle buffers (04 R154, R161, R163) -/
  arrived : List VBlock := []
  /-- a slot faulted at the safe point of a preemption: VFAULT is raised when the restore ends (R141) -/
  faultAtSave : Bool := false
deriving DecidableEq, Repr

/-- The check-unit channel of a spindle (13 Table 13-7). -/
structure Check where
  poly : BitVec 2 := 0
  r : Word := 0xFFFFFFFF
  lv : Byte := 0
  v : Bool := false
deriving DecidableEq, Repr

/-- The AIRQ control and counters of a check channel (13 Table 13-7). -/
structure CheckCtl where
  airq : Bool := true
  repeat_ : Nat := 0
  gap : Nat := 0
  stale : Nat := 0
deriving DecidableEq, Repr

/-! ## Queues (06) -/

/-- An item: its cell's link word fields and payload (06 Table 6-1). -/
structure QItem where
  len : Nat
  payload : BitVec 448
  status : BitVec 16 := 0
  /-- payload words that carry a poison marking (06 R213, R215) -/
  poison : BitVec 3 := 0
  /-- the cell of the pool it occupies (R210) -/
  cell : Nat := 0
  /-- a sweep has freed its cell, because the link word failed its check (R214): its queue is BROKEN -/
  lost : Bool := false
  /-- context and SEQ of the skein that popped it, while it is held (R226) -/
  holder : Option (Nat × Nat) := none
  /-- a link word written through the pool view, which reads back until the engine writes its own (model's own) -/
  link : Option DWord := none
  /-- SEQ of the skein whose commit made the item -/
  seq : Option Nat := none
deriving DecidableEq, Repr

/-- A commit parked on a queue (02 R92, 06 R222). -/
structure Parked where
  ctx : Nat
  seq : Nat
  rel : Nat
  dl : Nat
  status : BitVec 16
  items : List QItem
  /-- LATE skein: its outputs are untimed (02 R63) -/
  late : Bool
  cycles : Nat
  hbmSlots : Nat
  temp : Int
  /-- window of a PERIODIC stream's release (02 R61, R63) -/
  win : Int := 0
  /-- the check value that the commit writes back, with CHKEN 1 (06 R234) -/
  chk : Option Word := none
  /-- the logical spindle it ran on (01 R48) -/
  spindle : Nat := 0
deriving DecidableEq, Repr

inductive QState where
  | free | active | broken
deriving DecidableEq, Repr

/-- A queue record (06 Table 6-3) with its items. -/
structure Queue where
  state : QState := .free
  owner : PartId := 0
  /-- 0 Keep, 1 Flush -/
  flush : Bool := false
  prod : BitVec 3 := 0
  wmg : BitVec 6 := 0
  wmen : Bool := false
  /-- stream whose input queue, and whose output queue, this is (R218) -/
  inb : Option Nat := none
  outb : Option Nat := none
  err : Bool := false
  baseClim : Nat := 0
  clim : Nat := 0
  items : List QItem := []
  /-- items popped and not released: the read position counted from the oldest item -/
  heldN : Nat := 0
  /-- the marked item, counted from the oldest -/
  mark : Option Nat := none
  drops : Nat := 0
  result : BitVec 3 := 0
  busy : Bool := false
  parked : Option Parked := none
  /-- level 1 sources bound by QNOTE: spindle and source 8 to 15 -/
  note : List (Nat × Nat) := []
  /-- MSI-X vector bound by QMSIX -/
  msix : Option Nat := none
  /-- logical port bound by QEGRESS -/
  egress : Option Nat := none
  /-- the arrival last made by a push was discarded: its CONT items go with it (R223) -/
  contDrop : Bool := false
deriving DecidableEq, Repr

/-- A classification rule (06 Table 6-9) with its count of accepted frames. -/
structure Rule where
  port : Nat
  kind : Nat
  etype : Nat
  vlan : Nat
  ecpriId : Nat
  queue : Nat
  ringBase : Nat
  slotLog2 : Nat
  slots : Nat
  n : Nat
  /-- the partition that added it -/
  part : Nat
deriving DecidableEq, Repr

/-- A queue operation held by a region scrub (06 R215). -/
inductive QOp where
  | push (cls : Nat) (item : QItem) (cont : Bool)
  | pop (chk : CellCheck)
  | mark
  | rewind
  /-- linkFails: a link word that it walks fails its check -/
  | release (n : Nat) (linkFails : Bool)
  | flush (linkFails : Bool)
  | status
  | create
  | delete (linkFails : Bool)
  /-- the items that the ended skein of a stream popped are released (R226): its context and SEQ -/
  | ended (c seq : Nat)
  /-- the items of discarded arrivals, by their cells (02 R60, R63) -/
  | drop (cells : List Nat)
  /-- the item of a frame that the egress scheduler has read (15 R448): its cell and SEQ -/
  | sent (cell seq : Nat)
  /-- the next pushes of partition p's replay (07 R260) -/
  | replay (p : Nat)
  /-- a frame that rule or default rule i of a port matched (R231) -/
  | frame (dflt : Bool) (i port : Nat) (rule : Rule) (f : RxFrame)
deriving DecidableEq, Repr

/-- RGN_CFG and RGN_ERR of a region (06 Table 6-2). -/
structure Region where
  quota : Nat := 0
  enc : Bool := false
  encreq : Bool := false
  scrubbing : Bool := false
  ce : Nat := 0
  pe : Nat := 0
  ue : Nat := 0
  /-- operations held by the scrub, oldest first: queue and operation -/
  heldOps : List (Nat × QOp) := []
deriving DecidableEq, Repr

/-- WM_CFG and the state of a watermark group (06 Table 6-7). -/
structure WmGroup where
  high : Nat := 0
  low : Nat := 0
  en : Bool := false
  fcopin : BitVec 3 := 0
  fcoen : Bool := false
  irqen : Bool := false
  fcimask : Byte := 0
  asserted : Bool := false
  change : Bool := false
deriving DecidableEq, Repr

/-- The queue engine. -/
structure QEngine where
  queues : Tab Queue := []
  regions : Tab Region := []
  wm : Tab WmGroup := []
  /-- POOL_STAT.BOOT, and FREE (0 until the reset initialisation ends) -/
  boot : Bool := true
  free : Nat := 0
  qsel : Nat := 0
  /-- the allocation bitmap: cells that hold an item, staged ones among them (R211) -/
  alloc : Tab Bool := []
  /-- allocations made so far (model's own index of R211's open choice) -/
  serial : Nat := 0
  /-- FC_PINS -/
  fci : Byte := 0
  fcien : Byte := 0
  rules : Tab (Option Rule) := []
  /-- default rule of each logical port (06 R230) -/
  defRule : Tab (Option Rule) := []
deriving DecidableEq, Repr

/-! ## Streams and dispatch (02) -/

/-- An arrival held (02 R62, Table 2-4): its timestamp, its held instant (none: until the previous skein ends) and the
number of input items it brought. -/
structure HeldArr where
  ts : Nat
  /-- window it belongs to (02 R61) -/
  win : Int
  /-- earliest release: the window start, the previous release plus T, or the timestamp -/
  instant : Nat
  /-- it waits for the previous skein (R62) -/
  blocked : Bool
  status : BitVec 16
  late : Bool
  /-- input items it brought -/
  items : Nat
deriving DecidableEq, Repr

/-- A release event on its way to, or waiting in, a dispatcher (01 R44). -/
structure RelEvent where
  ctx : Nat
  /-- SEQ of the skein -/
  seq : Nat
  rel : Nat
  /-- window of a PERIODIC stream's arrival (02 R61) -/
  win : Int
  status : BitVec 16
  late : Bool
  /-- the event has reached the dispatcher -/
  arrived : Bool
  /-- the status bits known at the release (07 R257) -/
  known : BitVec 16 := 0
  /-- the input items of its arrival, which go with it when a close discards it (02 R58) -/
  items : Nat := 0
deriving DecidableEq, Repr

/-- What the governor and dispatcher keep for a stream beside its context (02). -/
structure StreamAux where
  /-- phase φ of the request (Table 2-1) -/
  phase : Nat := 0
  /-- highest window used by an arrival (R61), none before the first -/
  win : Option Int := none
  /-- previous release time (SPORADIC, Table 2-4) -/
  prevRel : Option Nat := none
  held : List HeldArr := []
  /-- the close instant (R58) -/
  closeAt : Option Nat := none
  inCred : Nat := 0
  outCred : Nat := 0
  park : Nat := 0
  /-- Be of the pricking at admission (R54), and its egress and shuttle times -/
  be : Nat := 0
  egressNs : Nat := 0
  shuttleNs : Nat := 0
  /-- adaptation frame boundaries passed at the last migration (R98) -/
  lastMig : Option Nat := none
  /-- the last migration: the spindle left, and the boundary instant (R48) -/
  migFrom : Option (Nat × Nat) := none
  /-- pattern card entry bound to the stream, and its START (07 R251) -/
  cardEntry : Option (Nat × Nat) := none
  /-- the bound entry's card is in force from this instant on (07 R252) -/
  cardFrom : Option Nat := none
  /-- statistics of Table 2-9 -/
  cyclesLast : Nat := 0
  cyclesMax : Nat := 0
  slackLast : Int := 0
  slackMin : Int := 0
  hbmLast : Nat := 0
  tempLast : Int := 0
  skeins : Nat := 0
  /-- a skein has been recorded since the open or the last STAT_RESET (R96; model's own) -/
  recorded : Bool := false
deriving DecidableEq, Repr

/-- An output unit of a commit that Throughput service has yet to write (05 R195, 07 R259). -/
structure TraceOut where
  /-- the stream; none once it has ended -/
  ctx : Option Nat
  part : Nat
  /-- its place in the order of arrival -/
  stamp : Nat
  data : List Byte
deriving DecidableEq, Repr

/-- The machine state a save keeps (02 R81, 08 R291, 03 R141). -/
structure Image where
  cpu : Cpu
  /-- it waits in WFI -/
  wfi : Bool := false
  seqr : Seqr
  chk : Check
deriving DecidableEq, Repr

/-- A skein released and not yet ended (02 R79 to R92). -/
structure Skein where
  ctx : Nat
  seq : Nat
  rel : Nat
  /-- absolute deadline r + D -/
  dl : Nat
  /-- relative deadline D -/
  relDl : Nat
  /-- background level: LATE skeins and BACKGROUND streams (R79) -/
  bg : Bool
  late : Bool
  status : BitVec 16
  /-- budget counter (R84) -/
  budget : Nat
  /-- cycles gone by since the counter reached 0 (R85; model's own) -/
  past : Nat := 0
  /-- cycles used (R95) -/
  cycles : Nat := 0
  hbmSlots : Nat := 0
  temp : Int := 0
  /-- items staged to the output queue, oldest first (06 R221) -/
  staged : List QItem := []
  /-- window of a PERIODIC stream's release -/
  win : Int := 0
  /-- bound to a pattern card entry in force: it waits for START (07 R252) -/
  bound : Bool := false
  /-- START has come: it is dispatched next (07 R252) -/
  due : Bool := false
  /-- recorded in M5 (07 R257, R265) -/
  traced : Bool := false
  /-- item records waiting for the next type 2 unit, oldest first (07 R257) -/
  tracedItems : List Rec64 := []
  /-- the status bits known at its release (07 R257) -/
  known : BitVec 16 := 0
  /-- the saved state, once it has run -/
  image : Option Image := none
deriving DecidableEq, Repr

/-- Why a running skein will stop at its next safe point (02 R59, R63, R85, R87). -/
inductive StopCause where
  | overrun | fault | forced | late
deriving DecidableEq, Repr

/-- The dispatcher of a logical spindle (02 R79 to R87). -/
structure Disp where
  running : Option Skein := none
  /-- the running skein's KEND has completed and its commit is due (08 R290) -/
  ending : Bool := false
  ready : List Skein := []
  /-- save slots: slot number and skein (R83) -/
  saved : List (Nat × Skein) := []
  /-- slot 31 holds a handler begun from the idle wait (12 R373) -/
  savedHandler : Option Image := none
  /-- a preemption request is waiting for a safe point (R81) -/
  preempt : Bool := false
  stop : Option StopCause := none
  /-- being drained for a spare replacement, a reset or a transition (01 R47) -/
  drain : Bool := false
  /-- release events in flight and held, in order of release -/
  events : List RelEvent := []
  /-- the controller runs a handler begun from the idle wait (12 R369, R373) -/
  handler : Bool := false
  /-- skeins running, ready or released are marked SUPPLY, THERMAL until the spindle is idle (17 R497, R500) -/
  supply : Bool := false
  thermal : Bool := false
  /-- a spare replacement has been made in this busy period (02 R97) -/
  replaced : Bool := false
  /-- trace units waiting for a request entry, oldest first: stream, address and bytes (07 R258) -/
  traceq : List (Nat × Nat × List Byte) := []
deriving DecidableEq, Repr

/-- A pattern card (07 Table 7-6). -/
structure CardEntry where
  start : Nat
  len : Nat
  prick : Nat
deriving DecidableEq, Repr

structure Card where
  fc : Nat
  entries : List CardEntry
deriving DecidableEq, Repr

/-- The card of a logical spindle: in force, and accepted and waiting for its first card frame (07 R250). -/
structure Cards where
  card : Option Card := none
  waiting : Option Card := none
  /-- TB at which the waiting card takes effect -/
  at_ : Nat := 0
  /-- CARD_STATUS (Table 7-7) -/
  status : Nat := 0
deriving DecidableEq, Repr

/-! ## Shuttles (13) -/

/-- SH_STAT.STATE (Table 13-2). -/
inductive ShState where
  | idle | running | stopped | halted
deriving DecidableEq, Repr

/-- A list: its context, its rank (the deadline, or none for background rank), when it became ready, and its address. -/
structure ShList where
  ctx : Option Nat
  seq : Nat
  dl : Option Nat
  /-- u in the cycle it became ready (R389) -/
  ready : Nat := 0
  /-- order of readiness (model's own counter) -/
  order : Nat
  addr : Nat
  /-- it has started and yielded at a descriptor boundary (R389) -/
  started : Bool := false
deriving DecidableEq, Repr

/-- A shuttle channel (Table 13-2), kept under its logical spindle. -/
structure Shuttle where
  st : ShState := .idle
  full : Bool := false
  armref : Bool := false
  cause : BitVec 3 := 0
  /-- armed lists: context to list address -/
  armed : Tab Nat := []
  ready : List ShList := []
  /-- the current list -/
  cur : Option ShList := none
  /-- SH_CUR.DESC -/
  desc : Nat := 0
  /-- NEXT and LAST of the descriptor last fetched (R395) -/
  next : Nat := 0
  last : Bool := false
  doneb : Nat := 0
  faddr : Nat := 0
  dir : Bool := false
  stop : Bool := false
  irqs : Nat := 0
  lists : Nat := 0
  /-- lists that have become ready (model's own) -/
  order : Nat := 0
deriving DecidableEq, Repr

/-! ## Egress (15) -/

/-- The item of a frame whose scratch read has not ended (15 R448): its queue and cell, and the frame's address. -/
structure TxSrc where
  queue : Nat
  cell : Nat
  addr : Nat
deriving DecidableEq, Repr

/-- A frame that waits to be sent (15 R447 to R451). -/
structure TxFrame where
  ctx : Option Nat
  seq : Nat
  rel : Nat
  status : BitVec 16
  /-- its bytes; while the read has not ended only their number counts -/
  bytes : List Byte
  /-- launch time tj -/
  at_ : Nat
  /-- r + O + W -/
  limit : Nat
  /-- commit time -/
  commit : Nat
  /-- what is left to be read -/
  src : Option TxSrc := none
deriving DecidableEq, Repr

/-- The egress scheduler of a logical port. -/
structure Egress where
  /-- timed frames in order of commit -/
  timed : List TxFrame := []
  /-- outputs of LATE skeins and frames sent under LATE_FRAME, in commit order (R451) -/
  late : List TxFrame := []
  /-- governor frames -/
  gov : List TxFrame := []
  /-- the frame on the wire ends at this TB -/
  busy : Nat := 0
  /-- queue last served in the round robin -/
  rr : Nat := 0
  /-- what the port's clock read as the timestamp point of the last frame passed it (R445) -/
  raw : DWord := 0
  /-- the egress timestamp of a two-step Sync, for the governor's Follow_Up (R452) -/
  twoStep : Option DWord := none
deriving DecidableEq, Repr

/-! ## Memories and fabric (05) -/

/-- A hank's power state (05 R183): on, retention, off, or in transition to one of the three. -/
inductive HankPower where
  | on | ret | off
  | moving (old new : BitVec 2)
deriving DecidableEq, Repr

/-- A written change of HANK_OWN that waits for its boundary (05 R180, R181). -/
structure Handover where
  owner : BitVec 5
  fabhoop : HoopId
  faben : Bool
  /-- made by SCRUBNOW -/
  now : Bool
deriving DecidableEq, Repr

/-- A hank's control registers (05 Table 5-5, HANK_PWR, HANK_CE, HANK_UE) and what they have in progress. -/
structure Hank where
  /-- owner, fabric hoop and enable in force -/
  owner : BitVec 5 := 0x1F
  fabhoop : HoopId := 0
  faben : Bool := false
  scrub : Bool := false
  scrubNow : Bool := false
  pend : Option Handover := none
  /-- the boundary has passed and the due scrub waits for the hank to be on (R182) -/
  heldScrub : Bool := false
  scrubbing : Bool := false
  busyerr : Bool := false
  limerr : Bool := false
  req : BitVec 2 := 0
  power : HankPower := .on
  /-- a REQ written during a transition, or deferred while PEND is 1 (R184) -/
  reqNext : Option (BitVec 2) := none
  ce : Nat := 0
  ueCount : Nat := 0
  ueRow : Nat := 0
  ueBgroup : Nat := 0
  ueBank : Nat := 0
deriving DecidableEq, Repr

/-- An HBM controller (05 HBM_STAT, HBM_RETIRE, R192, R196, R199). -/
structure Stack where
  /-- in self-refresh (17 R489, R492) -/
  asleep : Bool := false
  hot : Bool := false
  swap : Bool := false
  temp : Byte := 0
  retired : Word := 0
  /-- a pattern switch waiting for the frame boundary -/
  switch : Option Bool := none
  /-- a retirement setting waiting for the frame boundary -/
  retire : Option Word := none
deriving DecidableEq, Repr

/-- A lock held on a target of the control matrix (05 R207). -/
structure MatrixLock where
  master : Master
  /-- beats it has made, and those it has still to make -/
  beats : Nat
  left : Nat
  /-- u when it started -/
  start : Nat
deriving DecidableEq, Repr

/-- A lockable target: the lock held, u when the last lock ended, and the beats of broken sequences, by master, that a lock-break
response awaits (R207). -/
structure LockState where
  held : Option MatrixLock := none
  ended : Option Nat := none
  broken : List (Master × Nat) := []
deriving DecidableEq, Repr

/-! ## Partitions (07) -/

/-- A partition's registers (07 Table 7-1) and its transition in progress. -/
structure Part where
  mode : BitVec 3 := 0
  target : BitVec 3 := 0
  pend : Bool := false
  phase : BitVec 3 := 0
  errcode : BitVec 4 := 0
  err : Bool := false
  spin0 : DWord := 0
  spin1 : DWord := 0
  ctxq : Nat := 0
  egr : Word := 0
  trBase : Nat := 0
  /-- units written since the recording began; WR is its low 32 bits (R257) -/
  trWr : Nat := 0
  trUnits : Word := 0
  /-- a move to M0 that waits only for the partition's streams (R247, R264) -/
  forced : Bool := false
  /-- TB at which the waiting transition was accepted, or the last stream that held it back became FREE: it starts at a later
  boundary (R247, R265) -/
  since : Nat := 0
  /-- hanks whose scrub the action in progress waits for (R256) -/
  scrubs : List Nat := []
  /-- recording of M5: releases from recFrom on and before recTo are recorded (R247, R265) -/
  recFrom : Option Nat := none
  recTo : Option Nat := none
  /-- a partition reset in progress (17 R493); its steps 3 to 5 are still to be made -/
  resetting : Bool := false
  resetWork : Bool := false
  traceLost : Nat := 0
  /-- REPLAY_STATE, and what is left of the replay (R260) -/
  replay : BitVec 3 := 0
  replayCtx : Nat := 0
  replayAt : Nat := 0
  replayLeft : Nat := 0
  /-- the recorded context: that of the first header read -/
  replayRec : Option Nat := none
deriving DecidableEq, Repr

/-! ## Timebase (14) -/

/-- The timebase block (14 R405, Table 14-1). -/
structure Timebase where
  /-- TB, TIME nanoseconds -/
  tb : DWord := 0
  setLo : Word := 0
  setHi : Word := 0
  slewing : Bool := false
  locked : Bool := false
  slewRate : Byte := 0x32
  rport : BitVec 5 := 0
  fref : Bool := false
  freq : Word := 0
  /-- remainder of the slew, ns, signed; and millionths of a ns absorbed since it last moved (R408) -/
  slew : Int := 0
  slewPart : Nat := 0
  /-- a write of TB_CTL.STEP landed in this TIME cycle: TB takes TB_SETHI:TB_SETLO in the next one (R409) -/
  stepping : Bool := false
  /-- PPS capture, its count, and the TIME cycle of the last captured edge (R411) -/
  cap : DWord := 0
  seq : Byte := 0
  lastEdge : Option Nat := none
  inen : Bool := false
  inpol : Bool := false
  outen : Bool := false
  synce : BitVec 2 := 0
  off : Nat := 0
  width : Nat := 100000000
  /-- PPS_OUT, the TIME cycle of its latest rise (R412), and the last level of PPS_IN -/
  ppsOut : Bool := false
  riseAt : Nat := 0
  ppsIn : Bool := false
deriving DecidableEq, Repr

/-- A timer channel (14 Table 14-2). -/
structure Timer where
  en : Bool := false
  down : Bool := false
  chain : Bool := false
  prescale : BitVec 4 := 0
  autoadd : Bool := false
  imatch : Bool := false
  izero : Bool := false
  cnt : Word := 0
  cmp : Word := 0
  intv : Word := 0
  reload : Word := 0xFFFFFFFF
  top : Word := 0xFFFFFFFF
  phase : Word := 0
  matched : Bool := false
  zero : Bool := false
  wait : Bool := false
  route : Spindle := 0
  all : Bool := false
  /-- the TIME cycle of the channel's start, from which 2^PRESCALE cycles count to every tick (R417) -/
  origin : Nat := 0
  /-- the TIME cycle up to which the channel's own ticks are done -/
  last : Nat := 0
  /-- TIMER_TICK came in the TIME cycle of the tick, which falls after all writes of that cycle (Table 14-5) -/
  fell : Bool := false
  /-- the TIME cycle of the latest write of CNT or IMMEDIATE, whose tick or carry is lost (Table 14-5) -/
  held : Option Nat := none
  /-- the TIME cycle in which TMB_START started the channel, in which a write of EN loses (Table 14-5) -/
  begun : Option Nat := none
deriving DecidableEq, Repr

/-- A partition's timer block. -/
structure TimerBlock where
  ch : Tab Timer := []
  /-- TMB_AT -/
  at_ : DWord := 0
  late : Bool := false
deriving DecidableEq, Repr

/-! ## Host rings (15) -/

/-- A ring of a virtual function (15 Table 15-3). -/
structure Ring where
  base : Nat := 0
  log2 : Nat := 0
  en : Bool := false
  err : Bool := false
  pi : Nat := 0
  ci : Nat := 0
  lost : Nat := 0
  /-- reading stopped at CI by a failed read until the next PI write (R434) -/
  stopped : Bool := false
  /-- events lost since the last LOST event (R435) -/
  lostSince : Nat := 0
  /-- entries promised to requests in progress (R435) -/
  promised : Nat := 0
deriving DecidableEq, Repr

/-- What the block has sent, newest first (model's own record of its outputs). -/
inductive Sent where
  /-- a write of host memory, and a read of n bytes of it, with the function that is the requester (0 to 15 VF, 16 PF) -/
  | hostWrite (fn addr : Nat) (bytes : List Byte)
  | hostRead (fn addr n : Nat)
  /-- an MSI-X message of function fn (0 to 15 VF, 16 PF) -/
  | msix (fn vec : Nat) (addr : DWord) (data : Word)
  /-- an Ethernet frame started on a logical port, at TB ns -/
  | frame (port : Nat) (at_ : Nat) (bytes : List Byte)
  /-- a ZMP frame -/
  | zmp (bytes : List Byte)
deriving DecidableEq, Repr

/-- The node state of the device (16 R471, Table 0-2). -/
inductive Node where
  | init | unaddressed | preop | operational | stopped | fault
deriving DecidableEq, Repr

/-- The answer to the last access or request from outside (model's own). -/
inductive Resp where
  | none
  /-- bytes returned -/
  | data (bytes : List Byte)
  /-- an error response (05 R173) -/
  | error
  /-- a lock-break response (05 R207) -/
  | lockBreak
  /-- poisoned data (15 R431) -/
  | poison
  /-- a dictionary abort (16 Table 16-10) -/
  | abort (code : Nat)
deriving DecidableEq, Repr

/-- A mailbox of a function (15 Table 15-7). -/
structure Mailbox where
  op : Bool := false
  index : Half := 0
  sub : Byte := 0
  len : BitVec 14 := 0
  busy : Bool := false
  statLen : BitVec 14 := 0
  done : Bool := false
  abort : Word := 0
  /-- the data window -/
  data : Tab Byte := []
deriving DecidableEq, Repr

/-- A host read that a command waits for (15 R439): the partition, the command, its tag and its index. -/
structure HostRead where
  part : Nat
  op : Nat
  tag : Nat
  index : Nat
  addr : Nat
deriving DecidableEq, Repr

/-- An HDM decoder (15 R431): granules base to base + count − 1. -/
structure Hdm where
  base : Nat := 0
  count : Nat := 0
  committed : Bool := false
  /-- the partition's range changed under the commit: the decoder's addresses still stand (fourth bullet of R431) -/
  refused : Bool := false
deriving DecidableEq, Repr

/-! ## Management (16) -/

/-- A ZMP frame waiting for transmission (16 R457), by kind: 0 EMERGENCY, 1 response, 2 NOTIFY. -/
structure ZmpTx where
  kind : Nat
  dst : Nat
  /-- bytes 3 on of the frame: SEQ, OPCODE, INDEX, SUB and payload -/
  seq : Nat
  opcode : Nat
  index : Nat
  sub : Nat
  payload : List Byte
deriving DecidableEq, Repr

/-- A block write session (16 R470). -/
structure BlockSess where
  index : Nat
  sub : Nat
  total : Nat
  data : List Byte
  /-- clock.cycles at its latest segment (R470) -/
  at_ : Nat
deriving DecidableEq, Repr

/-- A held emergency (16 Table 16-8). -/
structure Emcy where
  code : Nat
  node : Nat
  tb : Nat
  detail : Nat
  /-- clock.cycles when its frame was last sent; none while the first one waits (R472) -/
  sent : Option Nat
deriving DecidableEq, Repr

/-- What a valid bank of stored values says (16 R476): its generation, and its records by key. -/
structure Bank where
  gen : Word
  recs : List (Nat × List Byte)
deriving DecidableEq, Repr

/-- Whom the end of a STORE or RESTORE_DEFAULTS answers (16 R477): a ZMP requester with its SEQ and the response to a good end, the
sender of a command on the ZMP path, or a mailbox. -/
inductive StoreAnswer where
  | zmp (src seq : Nat) (x : ZmpTx)
  | resp
  | mailbox (f : Fn)
deriving DecidableEq, Repr

/-- A STORE that runs: the bank it writes (true: B), what it writes there, and whether that reads back; with no bank a
RESTORE_DEFAULTS. -/
structure StoreRun where
  bank : Option (Bool × Bank)
  ok : Bool
  answer : Option StoreAnswer := none
deriving DecidableEq, Repr

/-- The management node (16 R458 to R472). -/
structure Mgmt where
  addr : BitVec 5 := 0
  src : BitVec 2 := 0
  /-- ADDR_STRAP as last sampled (R458) -/
  strap : BitVec 5 := 0
  /-- CHAIN_IN behind its 20 µs filter, its level at the ball, and clock.cycles when that last changed (R459) -/
  chainIn : Bool := false
  chainRaw : Bool := false
  chainAt : Nat := 0
  chainOut : Bool := false
  /-- session of the last offer answered (R460), and whether a confirm may still match it: not after RESET_COMM (R485) -/
  session : Option Nat := none
  answered : Bool := false
  /-- ASSIGN responses that wait for opportunity 31, oldest first (clock.cycles at the offer's end, its session and its SEQ), and
  an acknowledgement that waits for the own one (clock.cycles at the confirm's end, and its SEQ) -/
  respDue : List (Nat × Nat × Option Nat) := []
  ackDue : Option (Nat × Option Nat) := none
  plca : Bool := false
  txq : List ZmpTx := []
  /-- requests received and not yet executed: source, SEQ, and opcode, with 16 added for an NMT command without a code of Table
  16-7, 32 for a broadcast and 64 for a frame to 0xFE (R465, R468) -/
  rxq : List (Nat × Nat × Nat) := []
  /-- alive counters by destination (R466) -/
  aliveTx : Tab Byte := []
  /-- last accepted alive value by source n: own frames at 2n, broadcasts at 2n + 1, confirms to 0xFE at 512 + n -/
  aliveRx : Tab (Option Byte) := []
  /-- last request executed of each source: SEQ and response (R467) -/
  last : Tab (Option (Nat × ZmpTx)) := []
  blocks : Tab (Option BlockSess) := []
  emcy : List Emcy := []
  /-- values last notified, by slot, and clock.cycles then (R483) -/
  seen : Tab (List Byte) := []
  seenAt : Tab (Option Nat) := []
  /-- clock.cycles at the last heartbeat (R482) and at the last beacon (R456) -/
  beat : Option Nat := none
  beacon : Nat := 0
  /-- the written bytes of the two banks of the flash; none in an erased one (R476) -/
  bankA : List Byte := []
  bankB : List Byte := []
  /-- a STORE or RESTORE_DEFAULTS that runs (R477) -/
  storing : Option StoreRun := none
  /-- why stored values were not restored, for EMERGENCY 0x0060: 0 none (R478) -/
  notRestored : Nat := 0
deriving DecidableEq, Repr

/-! ## Reset, power, faults (17) -/

/-- A logged error (Table 17-10a). -/
structure ErrEnt where
  code : Half
  detail : Word
  tb : DWord
  /-- V, for an entry of the log -/
  v : Bool := true
deriving DecidableEq, Repr

/-- POS_CTL of a position (R494). -/
structure Pos where
  off : Bool := false
  /-- STATE: 0 on, 1 in reset, 2 off, 3 powering on, 4 under test -/
  st : BitVec 3 := 0
  result : BitVec 2 := 0
  /-- clock.cycles at which STATE 1, or a STATE 3 that no transition of a partition ends, ends -/
  due : Option Nat := none
  /-- a self-test follows the reset (R495) -/
  test : Bool := false
deriving DecidableEq, Repr

/-- The state of the JTAG TAP, as far as R515 of 18 tells its states apart. -/
inductive Tap where
  | reset
  | shiftDr
  | shiftIr
  | other
deriving DecidableEq, Repr

/-- A spare replacement of a logical spindle (17 R509, Table 17-12): its old and new position, the CORE cycle of the boundary at
which it began, and whether the mapping has changed. -/
structure SpareMove where
  old : Nat
  new : Nat
  start : Nat
  moved : Bool := false
deriving DecidableEq, Repr

/-- The reset and power block, and what start-up and tests keep (17). -/
structure Rst where
  cause : BitVec 4 := 1
  rail : BitVec 4 := 0
  /-- SUP_STAT.WARN and EVENT -/
  warn : Byte := 0
  event : Byte := 0
  /-- TB ns at which the admission hold-off ends, from recovery (02 R91) -/
  holdoff : Option Nat := none
  /-- protection engaged (R500), and since cleared -/
  prot : Bool := false
  protEv : Bool := false
  /-- clock.cycles since which every sensor has read at or below release -/
  cool : Option Nat := none
  /-- temperature sensors 0 to 17, 0.125 °C units -/
  temps : Tab Int := []
  /-- WDT.EXPIRED, and clock.cycles at each distaff core's last kick -/
  expired : BitVec 4 := 0
  kicks : Tab Nat := []
  /-- ERR_FIRST, and its V -/
  first : Option ErrEnt := none
  firstV : Bool := false
  log : Tab (Option ErrEnt) := []
  next : BitVec 5 := 0
  wrap : Bool := false
  posFail : Tab Bool := []
  granSeal : Tab Bool := []
  pos : Tab Pos := []
  /-- logical spindles without a position (R495, R510) -/
  oos : Tab Bool := []
  /-- the spare replacement that runs at a spindle (R509) -/
  spare : Tab (Option SpareMove) := []
  /-- RESET_N, PERST_N and PWROK low; a brown-out hold -/
  resetLow : Bool := false
  perstLow : Bool := false
  pwrLow : Bool := false
  /-- PWROK, RESET_N and PERST_N low at the ball, bits 0 to 2 (18 R518) -/
  balls : BitVec 3 := 0
  /-- rails last told to lie below their levels in a reset or a brown-out, by index of Table 17-5 (18 R518) -/
  low : Byte := 0
  /-- the JTAG TAP (18 R515); no command of the table clocks it, and TRST_N's pull-down keeps it in reset -/
  tap : Tap := .reset
  held : Bool := false
  /-- start-up has run up to the end of its tests: INIT may end (Table 17-3) -/
  started : Bool := false
  standby : Bool := false
  /-- what standby will put back: positions that were on, HANK_PWR settings, the CORE step (R492) -/
  sbPos : List Nat := []
  sbHank : List (Nat × BitVec 2) := []
  sbStep : BitVec 2 := 0
  /-- running tests: unit and instance (R508); the one that TEST_GO started; a round of R510 goes on -/
  tests : List (Nat × Nat) := []
  testGo : Option (Nat × Nat) := none
  round : Bool := false
  /-- the fatal record is written (R505); a thermal trip holds start-up back (R490) -/
  recorded : Bool := false
  tripped : Bool := false
deriving DecidableEq, Repr

/-! ## The block -/

/-- The reasons a step can stop. -/
inductive Fault where
  /-- Raised by no command: every command has an effect. (Safe: it never ends a run.) -/
  | unreached
deriving DecidableEq, Repr

/-- The reasons a command can be turned away unread. -/
inductive Refusal where
  /-- Raised by an arm of exec for a command whose meaning is not written (safe: nothing happens). -/
  | notModelled (mnemonic : String)
deriving DecidableEq, Repr

/-- The state of the device. -/
structure State where
  /-- commands waiting, oldest first -/
  pending : List Instr := []
  clock : Clock := {}
  time : Timebase := {}
  cores : Tab Core := []
  seqrs : Tab Seqr := []
  checks : Tab Check := []
  checkCtls : Tab CheckCtl := []
  disps : Tab Disp := []
  l1s : Tab L1 := []
  l2 : L2 := {}
  msix : Tab Msix := []
  msixFns : Tab MsixFn := []
  mcs : Tab Mc := []
  /-- the context store: entry e (06 R232 to R235) -/
  store : Tab Rec64 := []
  streams : Tab StreamAux := []
  qe : QEngine := {}
  /-- bytes of HBM, scratch, IRAM and local data RAM, by device address; an unlisted byte reads as memDflt says -/
  mem : List Host.Cell := []
  hanks : Tab Hank := []
  hbms : Tab Stack := []
  /-- RSV_OCT, keyed 128 × pseudo-channel + octet (05 Table 5-10) -/
  rsv : Tab (BitVec 16) := []
  /-- lock state of the context store (0) and the pool view (1) -/
  locks : Tab LockState := []
  parts : Tab Part := []
  /-- GRAN_OWN (07), unlisted 0x1F; and the owner a granule takes when its zeroing ends -/
  granOwn : Tab (BitVec 6) := []
  granNext : Tab (Option (BitVec 5)) := []
  /-- physical position of logical spindle k of hoop h is 9h + its entry; unlisted k (01 R28) -/
  posMap : Tab Nat := []
  rings : Tab Ring := []
  sent : List Sent := []
  resp : Resp := .none
  node : Node := .init
  /-- outstanding HBM requests of each spindle in issue order, at most 32 (04 R163) -/
  hbmReqs : Tab (List HbmReq) := []
  /-- Trace output units that wait for Throughput service, oldest first (05 R195, 07 R259) -/
  traceOut : List TraceOut := []
  /-- dictionary values that are state of their own: index × 256 + sub-index (16); unlisted at default -/
  dict : Tab Nat := []
  /-- DOMAIN values that are state of their own, by the same key; unlisted empty -/
  doms : Tab (List Byte) := []
  /-- STAT_SELECT of each path: 0 to 15 VF, 16 PF, 17 ZMP (02 R96) -/
  selects : Tab Nat := []
  /-- PRICK_UNITS in force (06 R232) -/
  prickUnits : Nat := 4
  cards : Tab Cards := []
  shuttles : Tab Shuttle := []
  egress : Tab Egress := []
  timers : Tab TimerBlock := []
  mailboxes : Tab Mailbox := []
  hostReads : List HostRead := []
  hdms : Tab Hdm := []
  /-- the CXL device cache: lines held (host address / 64) and their data (15 R431) -/
  cxlCache : List (Nat × List Byte) := []
  /-- the ATS translation cache: function, page and translated page (15 R427) -/
  ats : List (Nat × Nat × Nat) := []
  /-- the uncorrectable errors a function has logged (AER, 15 R427): function 16 is the PF -/
  aer : Tab Nat := []
  mgmt : Mgmt := {}
  rst : Rst := {}
deriving DecidableEq, Repr

/-- The machine right after reset: every table at its reset values. -/
def State.reset : State := {}

end Sys2Proof.Machine
end

