-- ==== Sys2Proof/Machine/Ops.lean ====
section
/-! DEFINITION. The named operations every family shares: the accessors of each table, the byte memory with the
reservations a write clears, interrupt events, response rings, the fetch check, and taking an exception. -/

namespace Sys2Proof.Machine
open Sys2Proof

/-! ## Accessors -/

def State.core (s : State) (k : Nat) : Core := tabGet (Core.init k) s.cores k
def State.setCore (s : State) (k : Nat) (c : Core) : State := { s with cores := tabSet (Core.init k) s.cores k c }
def State.modCore (s : State) (k : Nat) (f : Core → Core) : State := s.setCore k (f (s.core k))
def State.cpu (s : State) (k : Nat) : Cpu := (s.core k).cpu
def State.modCpu (s : State) (k : Nat) (f : Cpu → Cpu) : State := s.modCore k fun c => { c with cpu := f c.cpu }
def State.seqr (s : State) (k : Nat) : Seqr := tabGet {} s.seqrs k
def State.setSeqr (s : State) (k : Nat) (q : Seqr) : State := { s with seqrs := tabSet {} s.seqrs k q }
def State.check (s : State) (k : Nat) : Check := tabGet {} s.checks k
def State.setCheck (s : State) (k : Nat) (c : Check) : State := { s with checks := tabSet {} s.checks k c }
def State.checkCtl (s : State) (k : Nat) : CheckCtl := tabGet {} s.checkCtls k
def State.setCheckCtl (s : State) (k : Nat) (c : CheckCtl) : State := { s with checkCtls := tabSet {} s.checkCtls k c }
def State.disp (s : State) (k : Nat) : Disp := tabGet {} s.disps k
def State.setDisp (s : State) (k : Nat) (d : Disp) : State := { s with disps := tabSet {} s.disps k d }
def State.modDisp (s : State) (k : Nat) (f : Disp → Disp) : State := s.setDisp k (f (s.disp k))
def State.l1 (s : State) (w : Nat) : L1 := tabGet {} s.l1s w
def State.setL1 (s : State) (w : Nat) (x : L1) : State := { s with l1s := tabSet {} s.l1s w x }
def State.mc (s : State) (w : Nat) : Mc := tabGet {} s.mcs w
def State.setMc (s : State) (w : Nat) (x : Mc) : State := { s with mcs := tabSet {} s.mcs w x }
def State.hank (s : State) (n : Nat) : Hank := tabGet {} s.hanks n
def State.setHank (s : State) (n : Nat) (h : Hank) : State := { s with hanks := tabSet {} s.hanks n h }
def State.stack (s : State) (n : Nat) : Stack := tabGet {} s.hbms n
def State.setStack (s : State) (n : Nat) (h : Stack) : State := { s with hbms := tabSet {} s.hbms n h }
def State.part (s : State) (p : Nat) : Part := tabGet {} s.parts p
def State.setPart (s : State) (p : Nat) (x : Part) : State := { s with parts := tabSet {} s.parts p x }
def State.queue (s : State) (q : Nat) : Queue := tabGet {} s.qe.queues q
def State.setQueue (s : State) (q : Nat) (x : Queue) : State :=
  { s with qe := { s.qe with queues := tabSet {} s.qe.queues q x } }
def State.region (s : State) (r : Nat) : Region := tabGet {} s.qe.regions r
def State.setRegion (s : State) (r : Nat) (x : Region) : State :=
  { s with qe := { s.qe with regions := tabSet {} s.qe.regions r x } }
def State.aux (s : State) (c : Nat) : StreamAux := tabGet {} s.streams c
def State.setAux (s : State) (c : Nat) (x : StreamAux) : State := { s with streams := tabSet {} s.streams c x }
def State.entry (s : State) (e : Nat) : Rec64 := tabGet 0 s.store e
def State.ring (s : State) (p r : Nat) : Ring := tabGet {} s.rings (4 * p + r)
def State.card (s : State) (k : Nat) : Cards := tabGet {} s.cards k
def State.setCard (s : State) (k : Nat) (x : Cards) : State := { s with cards := tabSet {} s.cards k x }
def State.shuttle (s : State) (k : Nat) : Shuttle := tabGet {} s.shuttles k
def State.setShuttle (s : State) (k : Nat) (x : Shuttle) : State := { s with shuttles := tabSet {} s.shuttles k x }
def State.port (s : State) (n : Nat) : Egress := tabGet {} s.egress n
def State.setPort (s : State) (n : Nat) (x : Egress) : State := { s with egress := tabSet {} s.egress n x }
def State.pos (s : State) (w : Nat) : Pos := tabGet {} s.rst.pos w
def State.setPos (s : State) (w : Nat) (x : Pos) : State := { s with rst := { s.rst with pos := tabSet {} s.rst.pos w x } }
def State.oos (s : State) (k : Nat) : Bool := tabGet false s.rst.oos k
def State.setRing (s : State) (p r : Nat) (x : Ring) : State := { s with rings := tabSet {} s.rings (4 * p + r) x }

/-- TB, in ns. -/
def State.now (s : State) : Nat := s.time.tb.toNat

/-- A fresh value of Config, and the state that has used it. -/
def State.fresh (s : State) : DWord × State :=
  (Config.freeWord s.clock.free, { s with clock := { s.clock with free := s.clock.free + 1 } })

def State.send (s : State) (x : Sent) : State := { s with sent := x :: s.sent }

/-- Length of a CORE cycle in 24ths of a ns (Table 0-4: 0.625, 5/6, 1.25 and 2.5 ns); twice as long under a supply or
thermal stretch (17 R497, R500). -/
def coreLen (step : BitVec 2) (stretched : Bool) : Nat :=
  (if stretched then 2 else 1) *
    match step.toNat with
    | 0 => 15
    | 1 => 20
    | 2 => 30
    | _ => 60

/-- CORE cycles last twice their length (17 R497, R500). -/
def State.stretched (s : State) : Bool := s.rst.warn.getLsbD 0 || s.rst.warn.getLsbD 1 || s.rst.prot

def State.coreLen (s : State) : Nat := Sys2Proof.Machine.coreLen s.clock.step s.stretched

/-- CORE cycles that end in the next nanosecond. A CORE cycle that a change of its length finds begun ends with the next edge of
the new length, so that no cycle counts that did not pass (04 R152, R169); a thermal trip stops the clock (17 R500). -/
def State.coreCycles (s : State) : Nat :=
  if s.rst.tripped then 0 else (min s.clock.phase (s.coreLen - 1) + 24) / s.coreLen

/-- Four CORE cycles in whole ns: TB may have counted that many since an instant four cycles back (01 R41). -/
def State.mirrorBound (s : State) : Nat := ceilDiv (4 * s.coreLen) 24

/-- The timebase mirror of hoop h (16: the I/O die) (01 R41): TB, or a value up to four CORE cycles older. -/
def State.mirror (s : State) (h : Nat) : Nat := s.now - Config.mirrorLag h s.now % (s.mirrorBound + 1)

/-! ## Positions, partitions and modes -/

/-- The physical position of logical spindle k (01 R28, R30). -/
def State.posOf (s : State) (k : Nat) : Nat := 9 * (k / 8) + tabGet (k % 8) s.posMap k

/-- The logical spindle mapped to physical position w, if any: an out-of-service spindle has none (17 R495). -/
def State.logOf (s : State) (w : Nat) : Option Nat :=
  ((List.range 8).map fun i => 8 * (w / 9) + i).find? fun k => s.posOf k = w && !s.oos k

/-- The 128-bit spindle mask of a partition (07 R240). -/
def Part.mask (x : Part) : Nat := x.spin0.toNat + x.spin1.toNat * 2 ^ 64

/-- The partition a logical spindle serves: the lowest one whose mask holds it (07 R241). -/
def State.partOf (s : State) (k : Nat) : Option Nat :=
  (List.range 16).find? fun p => bitOf (s.part p).mask k

/-- The mode in force of the partition of a spindle. -/
def State.modeOf (s : State) (k : Nat) : Option Nat := (s.partOf k).map fun p => (s.part p).mode.toNat

/-- The spindle's partition is in M1, M2, M4 or M5, which force the subnormal fields (03 R117, 08 R268). -/
def State.flushForced (s : State) (k : Nat) : Bool :=
  match s.modeOf k with
  | some m => m = 1 || m = 2 || m = 4 || m = 5
  | none => false

def State.inM4 (s : State) (k : Nat) : Bool := s.modeOf k = some 4

/-! ## The byte memory -/

/-- Window base of a core's local memories: position w's local window for a spindle controller (05 R174). A distaff
core's own memories lie outside every window; they take the keys after window 143. -/
def State.localKey (s : State) (k : Nat) : Nat :=
  0x014000000000 + (if k < 128 then s.posOf k else 144 + (k - 128)) * 0x40000

/-- What an unlisted byte reads as: 0, and in the firmware's range of the reserved granule (17 Table 17-3), whose contents
the manual does not give, an open value. -/
def memDflt (a : Nat) : Byte :=
  if 0x0017FC000000 ≤ a && a < 0x0017FE000000 then Config.firmwareByte a else 0

def State.byte (s : State) (a : Nat) : Byte := tabGet (memDflt a) s.mem a

/-- n bytes from address a upward. -/
def State.bytes (s : State) (a n : Nat) : List Byte := (List.range n).map fun i => s.byte (a + i)

def memWrite (m : List Host.Cell) (a : Nat) : List Byte → List Host.Cell
  | [] => m
  | b :: r => memWrite (tabSet (memDflt a) m a b) (a + 1) r

/-- Does a write of n bytes at a touch the 32-byte granule g? -/
def touches (a n g : Nat) : Bool := n ≠ 0 && decide (a / 32 ≤ g) && decide (g ≤ (a + n - 1) / 32)

/-- The reservation clears when a write of n bytes at a touches its granule (08 R286). -/
def Core.unreserve (a n : Nat) (c : Core) : Core :=
  match c.cpu.resv with
  | some g => if touches a n g then { c with cpu := { c.cpu with resv := none } } else c
  | none => c

/-- A write clears the reservation of every core that holds a granule it touches (08 R286). -/
def clearResv (cs : Tab Core) (a n : Nat) : Tab Core :=
  (cs.map Prod.fst).foldl (fun t k => tabSet (Core.init k) t k ((tabGet (Core.init k) t k).unreserve a n)) cs

/-- A write of context store entry e; a distaff core may hold a reservation there (08 R285, R286). -/
def State.setEntry (s : State) (e : Nat) (x : Rec64) : State :=
  { s with store := tabSet 0 s.store e x, cores := clearResv s.cores (0x011000000000 + 64 * e) 64 }

/-- A write of bytes at address a. -/
def State.poke (s : State) (a : Nat) (l : List Byte) : State :=
  { s with mem := memWrite s.mem a l, cores := clearResv s.cores a l.length }

/-- Zero a range of memory: every listed byte in it goes; it is a write (08 R286). -/
def State.zeroRange (s : State) (a n : Nat) : State :=
  { s with
    mem := s.mem.filter fun e => e.1 < a || a + n ≤ e.1
    cores := clearResv s.cores a n }

/-! ## Who is served (05 R178, R183, R188, R199) -/

def hankBase (n : Nat) : Nat := 0x010000000000 + n * 0x400000

/-- A change of FABEN or FABHOOP with the same owner waits for its boundary: a remote operand waits too (R202). -/
def Hank.fabPending (h : Hank) : Bool :=
  match h.pend with
  | some p => p.owner = h.owner && (p.faben ≠ h.faben || p.fabhoop ≠ h.fabhoop)
  | none => false

/-- The hank serves its owner: it is on, no handover is pending and no scrub runs or is held (R181 to R183). -/
def Hank.serving (h : Hank) : Bool := h.power = .on && h.pend.isNone && !h.scrubbing && !h.heldScrub

/-- Hank n serves the spindles of partition p. -/
def State.hankServes (s : State) (n p : Nat) : Bool := (s.hank n).serving && (s.hank n).owner.toNat = p

/-- An HBM address that no controller serves: its pseudo-channel is retired (R199), or its stack is in self-refresh, where the
firmware's own range is served all the same (17 R489, R492; DESIGN CHOICE, log entry 141). -/
def State.pcRetired (s : State) (a : Nat) : Bool :=
  bitOf (s.stack (fld a 13 2)).retired.toNat (fld a 8 5) || ((s.stack (fld a 13 2)).asleep && decide (a < 0x0017FC000000))

/-- Every stack enters self-refresh, or leaves it. -/
def State.hbmSleep (s : State) (b : Bool) : State :=
  (List.range 4).foldl (fun s k => s.setStack k { s.stack k with asleep := b }) s

def State.granOwner (s : State) (g : Nat) : Nat := if g = 1535 then 31 else bvFld (tabGet 0x1F s.granOwn g) 0 5
def State.granZeroing (s : State) (g : Nat) : Bool := bitOf (tabGet 0x1F s.granOwn g).toNat 5

/-- HBM address a is served to partition p (R188, R199). -/
def State.hbmServes (s : State) (a p : Nat) : Bool :=
  decide (a < 0x0017FC000000) && s.granOwner (a / 2 ^ 26) = p && !s.granZeroing (a / 2 ^ 26) && !s.pcRetired a

/-! ## Interrupt events (12) -/

/-- The level 1 sources of Table 12-6. -/
def l1Valid (n : Nat) : Bool := n ≤ 4 || (8 ≤ n && n ≤ 31)

/-- An event of level 1 source n at position w (R366): a position that is off records nothing (R374). -/
def State.l1Event (s : State) (w n : Nat) : State :=
  if l1Valid n && (s.pos w).st ≠ 2 then s.setL1 w { s.l1 w with pend := (s.l1 w).pend ||| BitVec.ofNat 64 (2 ^ n) } else s

/-- An event of level 1 source n of logical spindle k. -/
def State.l1EventAt (s : State) (k n : Nat) : State := if s.oos k then s else s.l1Event (s.posOf k) n

/-- The level 2 sources of Table 12-9. -/
def l2Valid (n : Nat) : Bool :=
  (1 ≤ n && n ≤ 6) || (8 ≤ n && n ≤ 13) || (16 ≤ n && n ≤ 27) || (64 ≤ n && n ≤ 95) || (128 ≤ n && n ≤ 160) ||
  (176 ≤ n && n ≤ 191) || (256 ≤ n && n ≤ 319) || (512 ≤ n && n ≤ 783) || (2048 ≤ n && n < 4096 && n % 16 < 8)

/-- An event of level 2 source n (R377). -/
def State.l2Event (s : State) (n : Nat) : State :=
  if l2Valid n then { s with l2 := { s.l2 with pend := tabSet false s.l2.pend n true } } else s

/-! ## MSI-X (12 R382, R383) -/

def fnKey : Fn → Nat
  | .vf p => p.toNat
  | .pf => 16

def State.msixEnt (s : State) (fn vec : Nat) : Msix := tabGet {} s.msix (2048 * fn + vec)
def State.setMsix (s : State) (fn vec : Nat) (x : Msix) : State := { s with msix := tabSet {} s.msix (2048 * fn + vec) x }

/-- Vectors of a function: 128 for the PF, 120 for a VF (R382). -/
def msixSize (fn : Nat) : Nat := if fn = 16 then 128 else 120

/-- A message of the vector has been sent and still waits in the endpoint (R383). -/
def State.msixUnsent (s : State) (fn vec : Nat) : Bool :=
  (s.sent.any fun m => match m with
    | .msix f v _ _ => f = fn && v = vec
    | _ => false) && Config.msixWaits fn vec s.clock.cycles

/-- The message of a vector (R383): none, and the PCIe source, for an address outside the function's permitted range; an
unsent message of the vector takes it in. Which addresses are permitted and when a message leaves are free (DESIGN CHOICE,
log entry 86). -/
def State.msixMessage (s : State) (fn vec : Nat) : State :=
  let e := s.msixEnt fn vec
  if !Config.msixPermits fn e.addr.toNat then s.l2Event 24
  else if s.msixUnsent fn vec then s
  else s.send (.msix fn vec e.addr e.data)

/-- An event on a vector (R383, 15 R429): nothing while MSI-X is off; the pending bit when the vector or the function is
masked; else its message. -/
def State.msixEvent (s : State) (fn vec : Nat) : State :=
  let e := s.msixEnt fn vec
  let f : MsixFn := tabGet {} s.msixFns fn
  if !f.enable then s
  else if e.mask || f.fmask then s.setMsix fn vec { e with pend := true }
  else s.msixMessage fn vec

/-! ## Host memory (15 R430, R431) -/

/-- The PCIe address function fn sends for host address a: translated when the translation cache holds its page (R430). -/
def State.hostAddr (s : State) (fn a : Nat) : Nat :=
  match s.ats.find? fun e => e.1 = fn && e.2.1 = a / 4096 with
  | some e => e.2.2 * 4096 + a % 4096
  | none => a

/-- The device cache of 16,384 lines after a read that finds the lines l in host memory, number r of its reads: which line of a
full cache goes is a free choice v. -/
def cxlFill (v r : Nat) (c : List (Nat × List Byte)) (l : List Nat) : List (Nat × List Byte) :=
  l.foldl (fun c x =>
    if c.any fun e => e.1 = x then c
    else (x, (List.range 64).map fun i => Config.hostByte r (64 * x + i)) :: (if 16384 ≤ c.length then c.eraseIdx (v % 16384) else c)) c

/-- The lines that n bytes at a touch. -/
def linesOf (a n : Nat) : List Nat := (List.range ((a % 64 + n + 63) / 64)).map fun i => a / 64 + i

/-- A byte as a list of lines holds it, 0 where it holds none. -/
def lineByte (c : List (Nat × List Byte)) (a : Nat) : Byte :=
  match c.find? fun e => e.1 = a / 64 with
  | some e => e.2.getD (a % 64) 0
  | none => 0

/-- LINK_MODE, 0x2200.07. -/
def linkModeKey : Nat := 0x2200 * 256 + 7
def State.cxlMode (s : State) : Bool := tabGet 0 s.dict linkModeKey = 1

/-- A read of host memory by function fn, which the request names (R430); what the host returns no rule states. cached: served
through the device cache of CXL.cache, whose lines are the data they came with (R431). -/
def State.hostRead (s : State) (fn a n : Nat) (cached : Bool) : List Byte × State :=
  let b := s.hostAddr fn a
  let r := s.clock.free
  let t := { s with clock := { s.clock with free := r + 1 } }
  if cached && s.cxlMode then
    let full := s.cxlCache ++ cxlFill 0 r [] (linesOf b n)
    let hit := (linesOf b n).all fun x => s.cxlCache.any fun e => e.1 = x
    let t := { t with cxlCache := cxlFill (Config.freeWord r).toNat r s.cxlCache (linesOf b n) }
    ((List.range n).map fun i => lineByte full (b + i), if hit then t else t.send (.hostRead fn b n))
  else ((List.range n).map fun i => Config.hostByte r (b + i), t.send (.hostRead fn b n))

/-- A write of host memory by function fn; a line of the device cache that it touches goes. -/
def State.hostPut (s : State) (fn a : Nat) (l : List Byte) : State :=
  let b := s.hostAddr fn a
  ({ s with cxlCache := s.cxlCache.filter fun e => e.1 < b / 64 || b + l.length ≤ 64 * e.1 }).send (.hostWrite fn b l)

/-! ## Response rings (15 R435) -/

/-- A test of unit kind runs on an instance (17 R508). -/
def State.testing (s : State) (unit inst : Nat) : Bool := s.rst.tests.contains (unit, inst)

/-- Distaff cores 0 to 3 that run firmware (R33, R35). -/
def State.distaffRunning (s : State) : Nat :=
  ((List.range 4).filter fun c => (s.core (128 + c)).run ≠ .halted && (s.core (128 + c)).run ≠ .off).length

def Ring.used (r : Ring) : Nat := (r.pi + 2 ^ 17 - r.ci) % 2 ^ 17
def Ring.size (r : Ring) : Nat := 2 ^ r.log2
/-- Free entries not promised to a request (R435). -/
def Ring.room (r : Ring) : Nat := if r.en then r.size - r.used - r.promised else 0

/-- Write an entry at PI with its phase and advance PI; the vector follows. -/
def State.ringPut (s : State) (p r : Nat) (e : Nat) : State :=
  let g := s.ring p r
  let phase := if (g.pi / g.size) % 2 = 0 then 1 else 0
  let s := s.hostPut p (g.base + 64 * (g.pi % g.size)) (bytesOfNat 64 (setFld e 504 1 phase))
  let s := s.setRing p r { g with pi := (g.pi + 1) % 2 ^ 17 }
  s.msixEvent p (if r = 1 then 0 else 1)

/-- An entry of ring r of partition p is promised to a request that the governor reads (R435, R454), and the promise ends. -/
def State.promise (s : State) (p r : Nat) : State := s.setRing p r { s.ring p r with promised := (s.ring p r).promised + 1 }
def State.redeem (s : State) (p r : Nat) : State := s.setRing p r { s.ring p r with promised := (s.ring p r).promised - 1 }

/-- One entry discarded for want of space (R435): RING_LOST saturates. -/
def Ring.lose (g : Ring) : Ring := { g with lost := min (g.lost + 1) 0xFFFFFFFF, lostSince := g.lostSince + 1 }

/-- An event entry (Table 15-5, TYPE 2). -/
def eventEntry (kind detail rel status seq tb : Nat) : Nat :=
  2 + kind * 2 ^ 8 + detail % 2 ^ 32 * 2 ^ 32 + rel % 2 ^ 64 * 2 ^ 64 + status % 2 ^ 16 * 2 ^ 128 +
    seq % 2 ^ 32 * 2 ^ 160 + tb % 2 ^ 64 * 2 ^ 192

/-- An event on partition p's admission ring: a LOST event first when entries have been lost, then the event, as far as
there is room (R435). In FAULT, and with no distaff core running, none is written (17 R504). -/
def State.anqEvent (s : State) (p : Nat) (kind detail rel status seq : Nat) : State :=
  let g := s.ring p 1
  if s.node = .fault || s.distaffRunning = 0 then s
  else if g.room = 0 then s.setRing p 1 g.lose
  else
    let s1 := if g.lostSince = 0 then s
      else (s.setRing p 1 { g with lostSince := 0 }).ringPut p 1 (eventEntry 9 g.lostSince 0 0 0 s.now)
    if (s1.ring p 1).room = 0 then s1.setRing p 1 (s1.ring p 1).lose
    else s1.ringPut p 1 (eventEntry kind detail rel status seq s.now)

/-- An answer on partition p's admission ring (Table 15-5, TYPE 1). -/
def State.anqAnswer (s : State) (p code tag detail : Nat) : State :=
  s.ringPut p 1 (1 + code % 2 ^ 8 * 2 ^ 8 + tag % 2 ^ 16 * 2 ^ 16 + detail % 2 ^ 32 * 2 ^ 32 + s.now % 2 ^ 64 * 2 ^ 64)

/-! ## Errors, emergencies and fatal errors (16 R472, 17 R501 to R504) -/

def nodeCode : Node → Nat
  | .init => 0
  | .unaddressed => 1
  | .preop => 2
  | .operational => 3
  | .stopped => 4
  | .fault => 5

/-- A log entry at ERR_CTL.NEXT (R503). -/
def State.logErr (s : State) (code detail : Nat) : State :=
  let r := s.rst
  { s with rst := { r with
      log := tabSet none r.log r.next.toNat (some ⟨BitVec.ofNat 16 code, BitVec.ofNat 32 detail, s.time.tb, true⟩)
      next := r.next + 1
      wrap := r.wrap || r.next = 31 } }

/-- Add a frame to the transmit queue: EMERGENCY frames, then responses, then NOTIFY frames (16 R457). -/
def txPut (q : List ZmpTx) (x : ZmpTx) : List ZmpTx :=
  (q.filter fun y => y.kind ≤ x.kind) ++ x :: q.filter fun y => x.kind < y.kind

/-- Table 16-8. -/
def Emcy.payload (e : Emcy) : List Byte :=
  bytesOfNat 2 e.code ++ bytesOfNat 1 e.node ++ bytesOfNat 1 0 ++ bytesOfNat 8 e.tb ++ bytesOfNat 4 e.detail

def emcyTx (e : Emcy) : ZmpTx := { kind := 0, dst := 0, seq := 0, opcode := 6, index := 0, sub := 0, payload := e.payload }

def sat32 (n : Nat) : Nat := min n 0xFFFFFFFF

/-- EMCY_LOST, 0x1120.08, counts an emergency that finds the list full (R472). -/
def emcyLostKey : Nat := 0x1120 * 256 + 8

/-- An emergency (R472): held and queued for node 0, and raised on PF vector 0. With no distaff core running none is sent
(17 R505). -/
def State.emergency (s : State) (code detail : Nat) : State :=
  let m := s.mgmt
  let e : Emcy := ⟨code, nodeCode s.node, s.now, detail, none⟩
  if s.distaffRunning = 0 then s
  else
    let s :=
      if m.emcy.length < 16 then
        { s with mgmt := { m with emcy := m.emcy ++ [e], txq := txPut m.txq (emcyTx e) } }
      else { s with dict := tabSet 0 s.dict emcyLostKey (sat32 (tabGet 0 s.dict emcyLostKey + 1)) }
    s.msixEvent 16 0

/-- ERR_FIRST after a fatal error e: the first one, and of two in one cycle the lower code (R503, R512). Two that one TIME cycle
latches count as in one cycle (DESIGN CHOICE, log entry 156). -/
def State.errFirst (s : State) (e : ErrEnt) : Option ErrEnt :=
  match s.rst.firstV, s.rst.first with
  | true, some f => if s.node = .fault && f.tb = e.tb && e.code.toNat < f.code.toNat then some e else some f
  | _, _ => some e

/-- A fatal error is latched (R503, R504): ERR_FIRST, the node state FAULT, PF vector 3 and, for the change of node state, PF
vector 0 (12 Table 12-12). A strapped device that leaves INIT so raises CHAIN_OUT (16 R459). -/
def State.fatal (s : State) (code detail : Nat) : State :=
  let s := s.logErr code detail
  let first := s.errFirst ⟨BitVec.ofNat 16 code, BitVec.ofNat 32 detail, s.time.tb, true⟩
  let s := { s with rst := { s.rst with firstV := true, first := first } }
  let s := if s.node = .fault then s else s.msixEvent 16 0
  let out := s.mgmt.chainOut || (s.node = .init && decide (s.mgmt.addr ≠ 0))
  ({ s with node := .fault, mgmt := { s.mgmt with chainOut := out } }).msixEvent 16 3

/-! ## Stream contexts (06 Table 6-12) and prickings (Table 6-13) -/

/-- A field of word w of an entry. -/
def rfld (e : Rec64) (w lo n : Nat) : Nat := fld e.toNat (64 * w + lo) n
def rset (e : Rec64) (w lo n v : Nat) : Rec64 := BitVec.ofNat 512 (setFld e.toNat (64 * w + lo) n v)

/-- A report of the dispatcher about a stream (12 Table 12-9, 15 Table 15-5): the spindle's event log, its level 2
source, and the event entry on the partition's admission ring. A full log of 64 holds the report back; its source is
raised when it enters. -/
def State.streamEvent (s : State) (ctx kind rel status seq : Nat) : State :=
  let e := s.entry ctx
  let k := rfld e 0 9 7
  let w := s.posOf k
  let x := s.l1 w
  let s := s.setL1 w { x with evt := x.evt ++ [(ctx, kind)] }
  let s := if x.evt.length < 64 then s.l2Event (2048 + 16 * k + kind) else s
  s.anqEvent (rfld e 0 5 4) kind ctx rel status seq

/-! ## General registers and status (08 R266, Table 8-2) -/

/-- The value of gN: g0 reads 0 (R266). -/
def Cpu.get (c : Cpu) (r : RegId) : DWord := if r = 0 then 0 else tabGet 0 c.g r.toNat
/-- Write gN: a write to g0 is discarded (R266). -/
def Cpu.set (c : Cpu) (r : RegId) (v : DWord) : Cpu := if r = 0 then c else { c with g := tabSet 0 c.g r.toNat v }
def Cpu.vget (c : Cpu) (r : Nat) : BitVec 128 := tabGet 0 c.v r
def Cpu.vset (c : Cpu) (r : Nat) (x : BitVec 128) : Cpu := { c with v := tabSet 0 c.v r x }

def State.g (s : State) (k : Nat) (r : RegId) : DWord := (s.cpu k).get r
def State.setG (s : State) (k : Nat) (r : RegId) (v : DWord) : State := s.modCpu k fun c => c.set r v
def State.pc (s : State) (k : Nat) : DWord := (s.cpu k).pc
def State.setPc (s : State) (k : Nat) (v : DWord) : State := s.modCpu k fun c => { c with pc := v }
/-- The PC advances past the instruction. -/
def State.advance (s : State) (k : Nat) : State := s.setPc k (s.pc k + 4)

def isDistaff (k : Nat) : Bool := 128 ≤ k
/-- ST as it reads: CT reads 1 on spindles of a partition in M4 (Table 8-2). -/
def State.stReg (s : State) (k : Nat) : DWord :=
  if k < 128 && s.inM4 k then (s.cpu k).st ||| 8 else (s.cpu k).st
def Cpu.pl (c : Cpu) : Nat := bvFld c.st 0 2
def Cpu.ie (c : Cpu) : Bool := c.st.getLsbD 2
def Cpu.sk (c : Cpu) : Bool := c.st.getLsbD 4

/-! ## Loads (08 R284, 09 R312) -/

/-- Bytes a load reads. -/
def ldSize : LdOp → Nat
  | .b => 1
  | .bu => 1
  | .h => 2
  | .hu => 2
  | .w => 4
  | .wu => 4
  | .d => 8

/-- What a load writes for the bytes x it has read (R284). -/
def ldValue (op : LdOp) (x : Nat) : DWord :=
  match op with
  | .b => sext64 8 x
  | .h => sext64 16 x
  | .w => sext64 32 x
  | .bu => BitVec.ofNat 64 (x % 2 ^ 8)
  | .hu => BitVec.ofNat 64 (x % 2 ^ 16)
  | .wu => BitVec.ofNat 64 (x % 2 ^ 32)
  | .d => BitVec.ofNat 64 x

/-- An outstanding device load whose data has come completes (09 R312, R315). -/
def Cpu.landLoad (c : Cpu) : Cpu :=
  match c.outLoad with
  | some o =>
    match o.resp with
    | some x => if o.waits ≠ 0 then c else { c.set o.rd (ldValue o.op x) with pc := c.pc + 4, outLoad := none }
    | none => c
  | none => c

/-! ## The fetch check (08 R272) -/

/-- Some segment with X = 1 covers the four bytes at a. -/
def fetchCovered (c : Cpu) (a : Nat) : Bool :=
  (List.range 8).any fun n =>
    let b := (tabGet 0 c.sgb n).toNat
    let l := (tabGet 0 c.sgl n).toNat
    bitOf l 50 && decide (b ≤ a) && decide (a + 3 ≤ b + fld l 0 48)

/-- A refill of core k at a is served: from scratch or HBM it may read (R272, 05 R178, R188, R205). -/
def State.fetchServed (s : State) (k a : Nat) : Bool :=
  if a < 0x001800000000 then
    !s.pcRetired a && (k ≥ 128 || match s.partOf k with | some p => s.hbmServes a p | none => false)
  else if 0x010000000000 ≤ a && a < 0x010010000000 then
    let n := (a - 0x010000000000) / 0x400000
    if k ≥ 128 then ((s.hank n).owner.toNat = 17 || (s.hank n).owner.toNat = 31) && (s.hank n).serving
    else match s.partOf k with
      | some p => s.hankServes n p
      | none => false
  else false

/-- The fetch of a core finds its word without a refill (09 R306, R307): in IRAM, in the line buffer, or cached. -/
def State.fetchReady (s : State) (k : Nat) (a : Nat) : Bool :=
  (decide (0x8000000000000000 ≤ a) && decide (a ≤ 0x800000000000FFFC)) ||
  (match (s.cpu k).lineBuf with | some l => l.1 = a / 64 | none => false) ||
  (tabGet [] (s.core k).icache (a / 64 % 64)).any fun l => l.1 = a / 64

/-- The exception a fetch at address a raises, if any: No-Execute 0x04, then Bus Error 0x07 (R272, R357); a line already held is
no access (R178). -/
def State.fetchFault (s : State) (k : Nat) (a : DWord) : Option Nat :=
  if !fetchCovered (s.cpu k) a.toNat then some 4
  else if !(s.fetchReady k a.toNat || s.fetchServed k a.toNat) then some 7
  else none

/-! ## Taking an exception (12 R316, R358 to R361) and returning from one (R363, R364, R370) -/

/-- One out-of-order operation writes its result and its flags (09 R303, 10 R329). -/
def Cpu.complete (c : Cpu) (r : PendRes) : Cpu :=
  let c := r.writes.foldl (fun c w => c.set w.1 w.2) c
  { c with fstat := c.fstat ||| BitVec.ofNat 64 r.flags.toNat }

/-- Every out-of-order operation in flight writes its result (R316). -/
def Core.drain (c : Core) : Core := { c with cpu := c.results.foldl Cpu.complete c.cpu, results := [] }

/-- A controller halts (R361): a running skein will abort with FAULT; level 2 CTRL_HALT or DISTAFF_HALT is raised, the error
is logged and an emergency sent (Table 16-8, Table 17-9). With no distaff core left fatal 0x3003 is latched (R502). -/
def State.haltCore (s : State) (k : Nat) : State :=
  let s := s.modCore k fun c => { c with run := .halted }
  if k < 128 then
    let s := s.modDisp k fun d => if d.running.isSome then { d with stop := some .fault } else d
    ((s.l2Event (512 + k)).logErr 0x2005 k).emergency 0x0041 k
  else
    let s := ((s.l2Event (3 + (k - 128))).logErr 0x2006 (k - 128)).emergency 0x0040 (k - 128)
    if s.distaffRunning = 0 then s.fatal 0x3003 0 else s

/-- What entry does to ST: PL becomes S, or M on a distaff core; IE and SK become 0; CT is unchanged (R358). -/
def entrySt (k : Nat) (st : DWord) : DWord :=
  BitVec.ofNat 64 ((if k < 128 then 1 else 3) + fld st.toNat 3 1 * 8)

/-- The core state at entry: EPC, EST, ECAUSE, EADDR and ST are written and the reservation is cleared (R358); PC takes
the vector (R360). keep: a Return Fault changes neither EPC nor EST. -/
def Cpu.enter (c : Cpu) (k : Nat) (st : DWord) (keep : Bool) (epc cause eaddr vec : DWord) : Cpu :=
  { c with
    epc := if keep then c.epc else epc
    est := if keep then c.est else st
    ecause := cause
    eaddr := eaddr
    st := entrySt k c.st
    resv := none
    entered := true
    pc := vec }

/-- The vector of an exception (R360). -/
def excVector (vbase : DWord) (code : Nat) : DWord :=
  BitVec.ofNat 64 (vbase.toNat / 2 ^ 13 * 2 ^ 13 + 0x1000 + 64 * code)

/-- The vector of level 1 source n, or of a distaff core's level 2 interrupt with n = 0 (R360). -/
def intVector (vbase : DWord) (n : Nat) : DWord := BitVec.ofNat 64 (vbase.toNat / 2 ^ 13 * 2 ^ 13 + 64 * n)

/-- The core halts when the fetch at the vector raises (R361). -/
def State.vectorCheck (s : State) (k : Nat) : State :=
  if (s.fetchFault k (s.pc k)).isSome then s.haltCore k else s

/-- ECAUSE of an exception (Table 12-3). -/
def causeWord (code acc : Nat) (imp : Bool) : DWord := BitVec.ofNat 64 (code + acc * 2 ^ 12 + b2n imp * 2 ^ 14)

/-- Take exception code on core k (R358): acc is ECAUSE.ACC, imp ECAUSE.IMP. XDEPTH counts exceptions taken while a
level 1 source is in service (R370). -/
def State.takeException (s : State) (k code : Nat) (epc eaddr : DWord) (acc : Nat := 0) (imp : Bool := false) : State :=
  let st := s.stReg k
  let s := s.modCore k fun c =>
    let c := c.drain
    let u := c.cpu.enter k st (code = 12) epc (causeWord code acc imp) eaddr (excVector c.cpu.vbase code)
    let u := if u.inServ.isSome then { u with xdepth := BitVec.ofNat 8 (min (u.xdepth.toNat + 1) 255) } else u
    { c with cpu := u, run := .executing }
  s.vectorCheck k

/-- An exception of the instruction at PC whose EADDR is the instruction word (Table 12-2, codes 1 to 3). -/
def State.raiseWord (s : State) (k code : Nat) (w : Word) : State :=
  s.takeException k code (s.pc k) (w.setWidth 64)

/-- Complete the source in service: its active bit clears and the record clears (R370). -/
def State.completeServ (s : State) (k : Nat) : State :=
  match (s.cpu k).inServ with
  | none => s
  | some n =>
    let w := s.posOf k
    let x := s.l1 w
    (s.setL1 w { x with active := x.active &&& ~~~(BitVec.ofNat 64 (2 ^ n.toNat)) }).modCpu k fun c =>
      { c with inServ := none, xdepth := 0 }

/-- The device is held in reset. -/
def State.inReset (s : State) : Bool := s.rst.pwrLow || s.rst.resetLow || s.rst.held

/-- The endpoint serves a host's access to a BAR: it is out of reset (17 R491), and the device is not in FAULT (17 R504). -/
def State.hostUp (s : State) : Bool := !s.rst.perstLow && !s.inReset && s.node ≠ .fault

/-- The idle marker of R369. -/
def idleMarker : DWord := 0xFFFFFFFFFFFFFFF0

/-- Return Fault conditions at level l (R364). -/
def returnFaults (k : Nat) (l : Nat) (est : DWord) : Bool :=
  let p := bvFld est 0 2
  decide (l < p) || p = 2 || (p = 3 && k < 128) || decide (2 ^ 5 ≤ est.toNat)

/-- RETX at level l with no Return Fault (R363, R370): ST from EST, PC from EPC, the reservation clears; the source in
service completes when XDEPTH is 0. A target that is the idle marker returns the controller to the dispatcher
(R369). -/
def State.returnX (s : State) (k : Nat) : State :=
  let c := s.cpu k
  let s := if c.inServ.isSome && c.xdepth = 0 then s.completeServ k else s
  let s := s.modCpu k fun u =>
    { u with
      st := c.est
      pc := c.epc
      resv := none
      xdepth := if c.xdepth = 0 then u.xdepth else u.xdepth - 1 }
  if c.epc = idleMarker && k < 128 then
    (s.modCore k fun c => { c with run := .idle }).modDisp k fun d => { d with handler := false }
  else s

end Sys2Proof.Machine
end

