-- ==== Sys2Proof/Machine/DictTab.lean ====
section
/-! DEFINITION. The rows of the object dictionary (16 R473, R474, R484 and the entry tables of every chapter): where an
entry exists, its type, its access code, its default, whether it is stored, and the bounds its table gives. -/

namespace Sys2Proof.Machine
open Sys2Proof

/-- The value types of Table 16-9a; the number is the largest size of a value without a fixed one. -/
inductive DTy where
  | bool | u8 | u16 | u32 | u64 | i8 | i16 | i32 | i64 | time
  | str (max : Nat)
  | domain (max : Nat)
deriving DecidableEq, Repr

/-- The access codes of 00 R23. -/
inductive DAcc where
  | ro | rw | rwp | wo | const
deriving DecidableEq, Repr

/-- A row of an entry table: indices first to last, sub-indices s0 to s1. lo and hi bound the values; sto: Persist STO. -/
structure DRow where
  first : Nat
  last : Nat
  s0 : Nat
  s1 : Nat
  ty : DTy
  acc : DAcc
  dflt : Nat := 0
  sto : Bool := false
  lo : Int := 0
  hi : Int := 0xFFFFFFFFFFFFFFFF
deriving DecidableEq, Repr

/-- Bytes of a value of fixed size; none for STRING and DOMAIN. -/
def DTy.size : DTy → Option Nat
  | .bool => some 1
  | .u8 => some 1
  | .u16 => some 2
  | .u32 => some 4
  | .u64 => some 8
  | .i8 => some 1
  | .i16 => some 2
  | .i32 => some 4
  | .i64 => some 8
  | .time => some 8
  | .str _ => none
  | .domain _ => none

def DTy.maxSize : DTy → Nat
  | .str m => m
  | .domain m => m
  | t => t.size.getD 0

def DTy.signed : DTy → Bool
  | .i8 => true
  | .i16 => true
  | .i32 => true
  | .i64 => true
  | _ => false

/-- 02 Tables 2-9 and 2-10, 06 Tables 6-8 and 6-11, 11 Table 11-9. -/
def dictRowsA : List DRow := [
  ⟨0x2010, 0x2010, 1, 1, .bool, .rw, 1, true, 0, 1⟩,
  ⟨0x2010, 0x2010, 2, 2, .u32, .rw, 1000000, true, 100000, 100000000⟩,
  ⟨0x2010, 0x2010, 3, 3, .u8, .rw, 0, true, 0, 0x0E⟩,
  ⟨0x2010, 0x2010, 4, 4, .u8, .rw, 0, true, 0, 3⟩,
  ⟨0x2010, 0x2010, 5, 5, .u16, .rw, 990, true, 500, 995⟩,
  ⟨0x2010, 0x2010, 6, 6, .u16, .rw, 50, true, 0, 500⟩,
  ⟨0x2010, 0x2010, 7, 7, .u32, .rw, 100, true, 1, 1000000⟩,
  ⟨0x2010, 0x2010, 8, 8, .bool, .rwp, 1, true, 0, 1⟩,
  ⟨0x2010, 0x2010, 9, 9, .bool, .rw, 1, true, 0, 1⟩,
  ⟨0x2010, 0x2010, 10, 10, .u16, .rw, 0, true, 0, 65535⟩,
  ⟨0x2010, 0x2010, 11, 11, .bool, .rw, 1, true, 0, 1⟩,
  ⟨0x2010, 0x2010, 12, 12, .i16, .rw, 85, true, 60, 100⟩,
  ⟨0x2020, 0x2020, 1, 1, .u8, .rwp, 4, true, 0, 64⟩,
  ⟨0x2030, 0x2030, 1, 1, .domain 4784, .rwp, 0, true, 0, 0⟩,
  ⟨0x2030, 0x2030, 2, 2, .u32, .ro, 0, false, 0, 0xFFFFFFFF⟩,
  ⟨0x2030, 0x2030, 3, 3, .u8, .ro, 0, false, 0, 255⟩,
  ⟨0x5010, 0x5010, 1, 1, .u32, .rw, 0, false, 0, 262143⟩,
  ⟨0x5010, 0x5010, 2, 2, .u8, .ro, 0, false, 0, 255⟩,
  ⟨0x5010, 0x5010, 3, 4, .u32, .ro, 0, false, 0, 0xFFFFFFFF⟩,
  ⟨0x5010, 0x5010, 5, 6, .i32, .ro, 0, false, -0x80000000, 0x7FFFFFFF⟩,
  ⟨0x5010, 0x5010, 7, 7, .u32, .ro, 0, false, 0, 0xFFFFFFFF⟩,
  ⟨0x5010, 0x5010, 8, 8, .i16, .ro, 0, false, -0x8000, 0x7FFF⟩,
  ⟨0x5010, 0x5010, 9, 9, .u64, .ro, 0, false, 0, 0xFFFFFFFFFFFFFFFF⟩,
  ⟨0x5010, 0x5010, 10, 10, .bool, .wo, 0, false, 0, 1⟩,
  ⟨0x5011, 0x5011, 1, 0x80, .u16, .ro, 0, false, 0, 0xFFFF⟩,
  ⟨0x7200, 0x723F, 1, 1, .u32, .rw, 0, true, 0, 524288⟩,
  ⟨0x7200, 0x723F, 2, 2, .u32, .rw, 0, true, 0, 524287⟩,
  ⟨0x7200, 0x723F, 3, 3, .u8, .rw, 255, true, 0, 255⟩,
  ⟨0x7200, 0x723F, 4, 4, .u8, .rw, 0, true, 0, 255⟩,
  ⟨0x7200, 0x723F, 5, 6, .bool, .rw, 0, true, 0, 1⟩,
  ⟨0x7280, 0x7280, 1, 1, .u8, .rw, 0, true, 0, 255⟩]

/-- 05 Tables 5-8 and 5-11, 07 Tables 7-2 and 7-7. -/
def dictRowsB : List DRow := [
  ⟨0x3000, 0x300F, 1, 1, .u8, .rw, 0, true, 0, 7⟩,
  ⟨0x3000, 0x300F, 2, 3, .u8, .ro, 0, false, 0, 255⟩,
  ⟨0x3000, 0x300F, 4, 5, .u64, .rw, 0, true, 0, 0xFFFFFFFFFFFFFFFF⟩,
  ⟨0x3000, 0x300F, 6, 6, .u32, .rw, 0, true, 0, 262144⟩,
  ⟨0x3000, 0x300F, 7, 7, .u32, .rw, 0, true, 0, 458752⟩,
  ⟨0x3000, 0x300F, 8, 8, .u16, .rw, 0, true, 0, 1534⟩,
  ⟨0x3000, 0x300F, 9, 9, .u16, .rw, 0, true, 0, 1535⟩,
  ⟨0x3000, 0x300F, 10, 10, .u32, .rw, 0, true, 0, 0xFFFFFFFF⟩,
  ⟨0x3000, 0x300F, 11, 11, .u64, .rw, 0, true, 0, 0xFFFFFFFFFFFFFFFF⟩,
  ⟨0x3000, 0x300F, 12, 12, .u32, .rw, 0, true, 0, 0x80000000⟩,
  ⟨0x3000, 0x300F, 13, 13, .bool, .rw, 0, true, 0, 1⟩,
  ⟨0x3000, 0x300F, 14, 14, .u32, .ro, 0, false, 0, 0xFFFFFFFF⟩,
  ⟨0x3000, 0x300F, 15, 15, .u16, .ro, 0, false, 0, 0xFFFF⟩,
  ⟨0x3000, 0x300F, 16, 16, .u32, .wo, 0, false, 0, 0xFFFFFFFF⟩,
  ⟨0x3000, 0x300F, 17, 18, .u32, .rw, 0, false, 0, 0xFFFFFFFF⟩,
  ⟨0x3000, 0x300F, 19, 19, .u8, .ro, 0, false, 0, 255⟩,
  ⟨0x3100, 0x313F, 1, 1, .u8, .rw, 31, true, 0, 31⟩,
  ⟨0x3100, 0x313F, 2, 2, .u8, .rw, 255, true, 0, 255⟩,
  ⟨0x3100, 0x313F, 3, 3, .bool, .rw, 0, true, 0, 1⟩,
  ⟨0x3100, 0x313F, 4, 4, .u8, .ro, 0, false, 0, 255⟩,
  ⟨0x3100, 0x313F, 5, 5, .u32, .ro, 0, false, 0, 0xFFFFFFFF⟩,
  ⟨0x3100, 0x313F, 6, 6, .u16, .ro, 0, false, 0, 0xFFFF⟩,
  ⟨0x3200, 0x32FE, 1, 1, .u8, .rw, 0, true, 0, 15⟩,
  ⟨0x3200, 0x32FE, 2, 4, .u8, .rw, 0, true, 0, 127⟩,
  ⟨0x3200, 0x32FE, 5, 6, .u64, .rw, 0, true, 0, 0xFFFFFFFFFFFFFFFF⟩,
  ⟨0x3200, 0x32FE, 7, 7, .bool, .rw, 0, true, 0, 1⟩,
  ⟨0x32FF, 0x32FF, 1, 2, .u64, .rw, 0, true, 0, 0xFFFFFFFFFFFFFFFF⟩,
  ⟨0x32FF, 0x32FF, 3, 3, .u8, .ro, 0, false, 0, 255⟩,
  ⟨0x32FF, 0x32FF, 4, 7, .i16, .ro, 0, false, -0x8000, 0x7FFF⟩,
  ⟨0x4E00, 0x4E7F, 1, 1, .domain 4112, .rw, 0, true, 0, 0⟩,
  ⟨0x4E00, 0x4E7F, 2, 2, .u8, .ro, 0, false, 0, 255⟩]

/-- 14 Table 14-3, 15 Table 15-11. -/
def dictRowsC : List DRow := [
  ⟨0x2100, 0x2107, 1, 2, .u8, .rwp, 2, true, 0, 3⟩,
  ⟨0x2100, 0x2107, 3, 3, .bool, .rwp, 1, true, 0, 1⟩,
  ⟨0x2110, 0x212F, 1, 1, .u32, .rw, 0x10000, true, 0, 0x10000⟩,
  ⟨0x2110, 0x212F, 2, 2, .u8, .rw, 0, true, 0, 1⟩,
  ⟨0x2110, 0x212F, 3, 4, .i32, .rw, 0, true, -1000, 1000⟩,
  ⟨0x2110, 0x212F, 5, 5, .bool, .ro, 0, false, 0, 1⟩,
  ⟨0x2110, 0x212F, 6, 7, .u32, .ro, 0, false, 0, 0xFFFFFFFF⟩,
  ⟨0x2110, 0x212F, 8, 8, .u64, .rw, 0, true, 0, 0xFFFFFFFFFFFFFFFF⟩,
  ⟨0x2110, 0x212F, 9, 9, .u8, .rw, 11, true, 8, 14⟩,
  ⟨0x2110, 0x212F, 10, 10, .u16, .rw, 1, true, 1, 65535⟩,
  ⟨0x2140, 0x2140, 1, 1, .u8, .rw, 0, true, 0, 3⟩,
  ⟨0x2140, 0x2140, 2, 2, .u8, .rw, 0, true, 0, 2⟩,
  ⟨0x2140, 0x2140, 3, 3, .u8, .rw, 0, true, 0, 255⟩,
  ⟨0x2140, 0x2140, 4, 4, .u32, .rw, 0, true, 0, 0xFFFFFFFF⟩,
  ⟨0x2140, 0x2140, 5, 5, .bool, .rw, 0, true, 0, 1⟩,
  ⟨0x2140, 0x2140, 6, 6, .i8, .rw, 0xFC, true, -7, 1⟩,
  ⟨0x2140, 0x2140, 7, 7, .i8, .rw, 0xFD, true, -3, 3⟩,
  ⟨0x2140, 0x2140, 8, 9, .u8, .rw, 128, true, 0, 255⟩,
  ⟨0x2140, 0x2140, 10, 11, .i64, .ro, 0, false, -0x8000000000000000, 0x7FFFFFFFFFFFFFFF⟩,
  ⟨0x2140, 0x2140, 12, 12, .u8, .ro, 0, false, 0, 255⟩,
  ⟨0x2200, 0x2200, 1, 1, .u8, .rwp, 16, true, 4, 16⟩,
  ⟨0x2200, 0x2200, 2, 2, .u8, .rwp, 6, true, 1, 6⟩,
  ⟨0x2200, 0x2200, 3, 4, .bool, .rwp, 1, true, 0, 1⟩,
  ⟨0x2200, 0x2200, 5, 7, .u8, .ro, 0, false, 0, 255⟩,
  ⟨0x7000, 0x7000, 1, 1, .time, .ro, 0, false, 0, 0xFFFFFFFFFFFFFFFF⟩,
  ⟨0x7000, 0x7000, 2, 2, .i32, .ro, 0, false, -0x80000000, 0x7FFFFFFF⟩,
  ⟨0x7000, 0x7000, 3, 3, .u8, .rw, 50, true, 1, 100⟩,
  ⟨0x7000, 0x7000, 4, 4, .u32, .rw, 1000, true, 100, 1000000000⟩,
  ⟨0x7000, 0x7000, 5, 5, .bool, .rw, 0, true, 0, 1⟩,
  ⟨0x7000, 0x7000, 6, 6, .u8, .rw, 0, true, 0, 1⟩,
  ⟨0x7000, 0x7000, 7, 7, .bool, .rw, 0, true, 0, 1⟩,
  ⟨0x7000, 0x7000, 8, 8, .u32, .rw, 0, true, 0, 999999999⟩,
  ⟨0x7000, 0x7000, 9, 9, .u32, .rw, 100000000, true, 1, 999999999⟩,
  ⟨0x7000, 0x7000, 10, 10, .u8, .rw, 0, true, 0, 3⟩,
  ⟨0x7000, 0x7000, 11, 11, .u8, .rw, 255, true, 0, 255⟩,
  ⟨0x7000, 0x7000, 12, 12, .bool, .ro, 0, false, 0, 1⟩]

/-- 16 Tables 16-11 and 16-12. -/
def dictRowsD : List DRow := [
  ⟨0x1000, 0x1000, 1, 2, .str 32, .const, 0, false, 0, 0⟩,
  ⟨0x1000, 0x1000, 3, 3, .str 32, .ro, 0, false, 0, 0⟩,
  ⟨0x1000, 0x1000, 4, 4, .u8, .ro, 0, false, 0, 255⟩,
  ⟨0x1000, 0x1000, 5, 6, .u64, .ro, 0, false, 0, 0xFFFFFFFFFFFFFFFF⟩,
  ⟨0x1000, 0x1000, 7, 7, .u32, .ro, 0, false, 0, 0xFFFFFFFF⟩,
  ⟨0x1000, 0x1000, 8, 8, .u32, .const, 0, false, 0, 0xFFFFFFFF⟩,
  ⟨0x1100, 0x1100, 1, 3, .u8, .ro, 0, false, 0, 255⟩,
  ⟨0x1100, 0x1100, 4, 4, .bool, .rw, 0, true, 0, 1⟩,
  ⟨0x1100, 0x1100, 5, 5, .u8, .rwp, 32, true, 1, 255⟩,
  ⟨0x1100, 0x1100, 6, 6, .u8, .rwp, 0, true, 0, 255⟩,
  ⟨0x1100, 0x1100, 7, 7, .u8, .rwp, 128, true, 0, 255⟩,
  ⟨0x1100, 0x1100, 8, 8, .bool, .ro, 0, false, 0, 1⟩,
  ⟨0x1100, 0x1100, 9, 9, .u16, .rw, 0, true, 0, 60000⟩,
  ⟨0x1100, 0x1100, 10, 10, .u8, .wo, 0, false, 0, 255⟩,
  ⟨0x1100, 0x1100, 11, 11, .u16, .rw, 100, true, 0, 60000⟩,
  ⟨0x1100, 0x1100, 12, 12, .u16, .wo, 0, false, 0, 0xFFFF⟩,
  ⟨0x1100, 0x1100, 13, 13, .domain 256, .ro, 0, false, 0, 0⟩,
  ⟨0x1100, 0x1100, 14, 14, .u16, .rw, 100, true, 10, 60000⟩,
  ⟨0x1110, 0x1110, 1, 16, .u32, .rw, 0, true, 0, 0xFFFFFFFF⟩,
  ⟨0x1120, 0x1120, 1, 8, .u32, .ro, 0, false, 0, 0xFFFFFFFF⟩,
  ⟨0x1120, 0x1120, 9, 9, .bool, .ro, 0, false, 0, 1⟩,
  ⟨0x1200, 0x1200, 1, 2, .u32, .wo, 0, false, 0, 0xFFFFFFFF⟩,
  ⟨0x1200, 0x1200, 3, 3, .u32, .ro, 0, false, 0, 0xFFFFFFFF⟩,
  ⟨0x1200, 0x1200, 4, 4, .u16, .ro, 0, false, 0, 0xFFFF⟩,
  ⟨0x1200, 0x1200, 5, 5, .u32, .ro, 0, false, 0, 0xFFFFFFFF⟩,
  ⟨0x4000, 0x47FF, 1, 1, .u8, .rw, 0, true, 0, 15⟩,
  ⟨0x4000, 0x47FF, 2, 2, .domain 64, .rw, 0, true, 0, 0⟩,
  ⟨0x4000, 0x47FF, 3, 3, .bool, .rw, 0, true, 0, 1⟩,
  ⟨0x4000, 0x47FF, 4, 4, .u64, .ro, 0, false, 0, 0xFFFFFFFFFFFFFFFF⟩,
  ⟨0x4800, 0x480F, 1, 1, .u8, .rw, 0, false, 0, 15⟩,
  ⟨0x4800, 0x480F, 2, 2, .domain 64, .rw, 0, false, 0, 0⟩,
  ⟨0x4800, 0x480F, 3, 3, .bool, .wo, 0, false, 0, 1⟩,
  ⟨0x4800, 0x480F, 4, 4, .u8, .ro, 0, false, 0, 255⟩,
  ⟨0x4800, 0x480F, 5, 5, .u32, .ro, 0, false, 0, 0xFFFFFFFF⟩,
  ⟨0x4800, 0x480F, 6, 6, .bool, .ro, 0, false, 0, 1⟩]

/-- 17 Tables 17-13 and after. -/
def dictRowsE : List DRow := [
  ⟨0x5000, 0x5000, 1, 1, .u8, .ro, 0, false, 0, 255⟩,
  ⟨0x5000, 0x5000, 2, 2, .bool, .ro, 0, false, 0, 1⟩,
  ⟨0x5000, 0x5000, 3, 4, .u32, .ro, 0, false, 0, 0xFFFFFFFF⟩,
  ⟨0x5000, 0x5000, 5, 5, .i16, .ro, 0, false, -0x8000, 0x7FFF⟩,
  ⟨0x5001, 0x5001, 1, 18, .i16, .ro, 0, false, -0x8000, 0x7FFF⟩,
  ⟨0x5020, 0x502F, 1, 1, .u32, .ro, 0x76543210, false, 0, 0xFFFFFFFF⟩,
  ⟨0x5020, 0x502F, 2, 2, .u8, .ro, 8, false, 0, 255⟩,
  ⟨0x5020, 0x502F, 3, 3, .u16, .ro, 0, false, 0, 0xFFFF⟩,
  ⟨0x5020, 0x502F, 4, 4, .u8, .ro, 0, false, 0, 255⟩,
  ⟨0x5030, 0x50AF, 1, 2, .u32, .ro, 0, false, 0, 0xFFFFFFFF⟩,
  ⟨0x50B0, 0x50B0, 1, 2, .u32, .ro, 0, false, 0, 0xFFFFFFFF⟩,
  ⟨0x5100, 0x5100, 1, 33, .domain 16, .ro, 0, false, 0, 0⟩,
  ⟨0x5100, 0x5100, 34, 34, .u32, .wo, 0, false, 0, 0xFFFFFFFF⟩,
  ⟨0x5F00, 0x5F00, 1, 1, .u8, .ro, 0, false, 0, 255⟩,
  ⟨0x5F00, 0x5F00, 2, 2, .u32, .ro, 0, false, 0, 0xFFFFFFFF⟩,
  ⟨0x5F00, 0x5F00, 3, 3, .time, .ro, 0, false, 0, 0xFFFFFFFFFFFFFFFF⟩,
  ⟨0x5F00, 0x5F00, 4, 4, .u16, .ro, 0, false, 0, 0xFFFF⟩,
  ⟨0x5F00, 0x5F00, 5, 7, .u32, .ro, 0, false, 0, 0xFFFFFFFF⟩,
  ⟨0x5F00, 0x5F00, 8, 8, .u32, .wo, 0, false, 0, 0xFFFFFFFF⟩,
  ⟨0x5F80, 0x5F80, 1, 1, .u32, .rw, 0, false, 0, 8191⟩,
  ⟨0x5F80, 0x5F80, 2, 2, .domain 4096, .ro, 0, false, 0, 0⟩,
  ⟨0x6000, 0x6000, 1, 1, .bool, .rw, 0, true, 0, 1⟩,
  ⟨0x6000, 0x6000, 2, 2, .u32, .rw, 86400, true, 60, 2592000⟩,
  ⟨0x6000, 0x6000, 3, 3, .bool, .rwp, 1, true, 0, 1⟩,
  ⟨0x6000, 0x6000, 4, 4, .u8, .wo, 0, false, 0, 15⟩,
  ⟨0x6000, 0x6000, 5, 5, .bool, .rw, 0, false, 0, 1⟩,
  ⟨0x6001, 0x6001, 1, 1, .u8, .rw, 0, false, 0, 5⟩,
  ⟨0x6001, 0x6001, 2, 2, .u16, .rw, 0, false, 0, 0xFFFF⟩,
  ⟨0x6001, 0x6001, 3, 3, .bool, .wo, 0, false, 0, 1⟩,
  ⟨0x6001, 0x6001, 4, 4, .u8, .ro, 0, false, 0, 255⟩,
  ⟨0x6001, 0x6001, 5, 5, .u32, .ro, 0, false, 0, 0xFFFFFFFF⟩]

def dictRows : List DRow := dictRowsA ++ dictRowsB ++ dictRowsC ++ dictRowsD ++ dictRowsE

def dkey (idx sub : Nat) : Nat := idx * 256 + sub

/-- PMD (0x2100 + m.02) has default 1 and PORT_MODE, in the same row, 2. -/
def rowDefault (r : DRow) (sub : Nat) : Nat :=
  if r.first = 0x2100 && sub = 2 then 1 else r.dflt

def DRow.has (r : DRow) (idx sub : Nat) : Bool :=
  decide (r.first ≤ idx) && decide (idx ≤ r.last) && decide (r.s0 ≤ sub) && decide (sub ≤ r.s1)

/-- The row of an entry. -/
def dictRow (idx sub : Nat) : Option DRow := dictRows.find? fun r => r.has idx sub

/-- The highest sub-index of an index; 0 where the index does not exist (R474). -/
def dictTop (idx : Nat) : Nat :=
  dictRows.foldl (fun m r => if decide (r.first ≤ idx) && decide (idx ≤ r.last) then max m r.s1 else m) 0

def dictDefault (key : Nat) : Nat :=
  match dictRow (key / 256) (key % 256) with
  | some r => rowDefault r (key % 256)
  | none => 0

/-- A dictionary value of fixed size that is state of its own, as its encoding read as a number. -/
def State.dget (s : State) (idx sub : Nat) : Nat :=
  tabGet (dictDefault (dkey idx sub)) s.dict (dkey idx sub)

def State.dset (s : State) (idx sub v : Nat) : State :=
  { s with dict := tabSet (dictDefault (dkey idx sub)) s.dict (dkey idx sub) v }

/-- A DOMAIN value that is state of its own. -/
def State.dom (s : State) (idx sub : Nat) : List Byte := tabGet [] s.doms (dkey idx sub)
def State.setDom (s : State) (idx sub : Nat) (v : List Byte) : State :=
  { s with doms := tabSet [] s.doms (dkey idx sub) v }

/-! ## Values other chapters use -/

/-- R of Table 15-8 for the configuration of a logical port in Gb/s; none where the port is not in use. -/
def State.portRate (s : State) (port : Nat) : Option Nat :=
  match s.dget (0x2100 + port / 4) 1 with
  | 0 => if port % 4 = 0 then some 400 else none
  | 1 => if port % 2 = 0 then some 200 else none
  | 2 => some 100
  | _ => none

/-- Wire time of a frame of L bytes (15 R447). -/
def wireNs (len rate : Nat) : Nat := ceilDiv ((len + 24) * 8) rate

end Sys2Proof.Machine
end

