-- ==== Sys2Proof/Machine/VopTab.lean ====
section
/-! DEFINITION. The long vector operations by OPC: how each steps and which operands it has (03 Table 3-9). -/

namespace Sys2Proof.Machine

/-- How an operation steps (R137). -/
inductive VKind where
  | map | reduce | gather | scatter | compress | expand | bfly | qpush | qpop
deriving DecidableEq, Repr

/-- The kind of an OPC and whether it has operands a, b and c; none for an OPC that Table 3-9 does not list. -/
def vopInfo (opc : Nat) : Option (VKind × Bool × Bool × Bool) :=
  match opc with
  | 0x001 | 0x002 | 0x003 | 0x007 | 0x008 | 0x00C | 0x00D | 0x00E => some (.map, true, true, false)
  | 0x004 | 0x005 | 0x006 => some (.map, true, true, true)
  | 0x009 | 0x00A | 0x00B => some (.map, true, false, false)
  | 0x020 | 0x021 | 0x030 => some (.map, true, true, false)
  | 0x022 | 0x023 | 0x031 | 0x038 | 0x039 => some (.map, true, true, true)
  | 0x040 | 0x041 | 0x042 | 0x043 | 0x044 | 0x045 | 0x046 => some (.reduce, true, false, false)
  | 0x050 | 0x051 | 0x052 | 0x053 | 0x054 => some (.map, true, true, false)
  | 0x058 | 0x059 | 0x05A | 0x05B => some (.map, true, true, false)
  | 0x05C => some (.map, true, false, false)
  | 0x05D => some (.map, true, true, true)
  | 0x060 => some (.compress, true, false, true)
  | 0x061 => some (.expand, true, false, true)
  | 0x068 => some (.gather, true, true, false)
  | 0x069 => some (.scatter, true, true, false)
  | 0x070 | 0x072 | 0x073 => some (.map, true, false, false)
  | 0x071 => some (.map, true, true, false)
  | 0x078 | 0x079 => some (.bfly, true, true, false)
  | 0x080 | 0x081 => some (.map, true, false, false)
  | 0x088 => some (.map, false, false, false)
  | 0x089 => some (.map, true, false, false)
  | 0x08A => some (.qpush, true, false, false)
  | 0x08B => some (.qpop, true, false, false)
  | _ => none

def vopListed (opc : Nat) : Bool := (vopInfo opc).isSome

end Sys2Proof.Machine
end

