-- ==== Sys2Proof/Machine/Micro.lean ====
section
/-! DEFINITION. Microcode patches: the image and its verification, applying it, and the patch registers of a position
(11 R348 to R353, Tables 11-2, 11-3, 11-7, 11-8). A patch changes no result (R350). -/

namespace Sys2Proof.Machine
open Sys2Proof

/-! ## The image (Table 11-8) -/

def beyond (l : List Byte) (a n : Nat) : Nat := natOfBytes ((l.drop a).take n)

/-- The parts of an image by offset. -/
structure Patch where
  id : Nat
  stepping : Nat
  nmicro : Nat
  nnano : Nat
  /-- FROM and TO words -/
  redirs : List (Nat × Nat)
  /-- OPC, START, RESUME and the last halfword -/
  disps : List (Nat × Nat × Nat × Nat)
  micro : List Nat
  nano : List Nat
  /-- length the counts give -/
  size : Nat
deriving DecidableEq, Repr

def parsePatch (l : List Byte) : Patch :=
  let nm := beyond l 10 2
  let nn := beyond l 12 2
  let nr := beyond l 14 1
  let nd := beyond l 15 1
  let a := 16 + 4 * nr
  let b := a + 8 * nd
  let c := b + (2 * nm + 7) / 8 * 8
  { id := beyond l 4 4, stepping := beyond l 8 2, nmicro := nm, nnano := nn
    redirs := (List.range nr).map fun i => (beyond l (16 + 4 * i) 2, beyond l (18 + 4 * i) 2)
    disps := (List.range nd).map fun i =>
      (beyond l (a + 8 * i) 2, beyond l (a + 8 * i + 2) 2, beyond l (a + 8 * i + 4) 2, beyond l (a + 8 * i + 6) 2)
    micro := (List.range nm).map fun i => beyond l (b + 2 * i) 2
    nano := (List.range nn).map fun i => beyond l (c + 24 * i) 24
    size := c + 24 * nn + 96 }

/-- A micro-store address that the loaded patch reaches. -/
def microRef (nm a : Nat) : Bool := a < 0x1000 || (0x1000 ≤ a && a < 0x1000 + nm)
def nanoRef (nn i : Nat) : Bool := i < 0x400 || (0x400 ≤ i && i < 0x400 + nn)

/-- Reserved fields of a nano-word are clear (Table 11-3). -/
def nanoClean (w : Nat) : Bool :=
  fld w 162 30 = 0 && fld w 111 11 = 0 && fld w 128 2 = 0 && fld w 101 5 = 0 && fld w 60 2 = 0 && fld w 68 2 = 0 &&
    fld w 76 2 = 0 && fld w 84 2 = 0

/-- MCODE_STATUS of a refused image: the first condition of R351 that holds. An override's START or RESUME is a reference like a
TARGET (R338). step: the device's stepping. -/
def patchStatus (step : Nat) (l : List Byte) : Option Nat :=
  let p := parsePatch l
  if !Config.signatureOk l then some 1
  else if !bitOf p.stepping step then some 2
  else if 512 < p.nmicro || 128 < p.nnano || 16 < p.redirs.length || 64 < p.disps.length || p.size ≠ l.length then some 3
  else if p.redirs.any fun e => 0x1000 ≤ fld e.1 0 13 || fld e.2 0 13 < 0x1000 || 0x1200 ≤ fld e.2 0 13 then some 4
  else if p.disps.any fun e => !vopListed (fld e.1 0 10) then some 5
  else if (p.micro.any fun w => !nanoRef p.nnano (fld w 0 11)) || (p.nano.any fun w => !microRef p.nmicro (fld w 0 13)) ||
      (p.disps.any fun e => !microRef p.nmicro (fld e.2.1 0 13) || !microRef p.nmicro (fld e.2.2.1 0 13)) then some 6
  else if (p.redirs.any fun e => fld e.1 13 3 ≠ 0 || fld e.2 13 3 ≠ 0) ||
      (p.disps.any fun e => fld e.1 10 6 ≠ 0 || fld e.2.1 13 3 ≠ 0 || fld e.2.2.1 13 3 ≠ 0 || e.2.2.2 ≠ 0) ||
      p.nano.any (fun w => !nanoClean w) then some 7
  else none

/-- The stepping, identity entry 0x1000.04. -/
def deviceStepping : Nat := Config.factory 0x1000 4

/-- Write each value at index i of a table. -/
def tabFill (l : List Nat) : Tab Nat := (List.range l.length).foldl (fun t i => tabSet 0 t i (l.getD i 0)) []

/-- The registers and RAMs of a position that runs image l; reset values for an empty image (R352). -/
def patchMc (l : List Byte) : Mc :=
  if l.isEmpty then {}
  else
    let p := parsePatch l
    { pen := true
      lock := true
      patchId := BitVec.ofNat 32 p.id
      redir := (p.redirs.mapIdx fun i x => (i, x)).foldl (fun t e =>
        tabSet 0 t e.1 (BitVec.ofNat 64 (fld e.2.1 0 13 + fld e.2.2 0 13 * 2 ^ 16 + 2 ^ 31))) []
      disp := (p.disps.mapIdx fun i x => (i, x)).foldl (fun t e =>
        tabSet 0 t e.1 (BitVec.ofNat 64 (fld e.2.1 0 10 + fld e.2.2.1 0 13 * 2 ^ 16 + fld e.2.2.2.1 0 13 * 2 ^ 32 + 2 ^ 63))) []
      micro := tabFill p.micro
      nano := tabFill p.nano }

/-- Governor firmware writes the patch in force to position w (R352). -/
def State.applyPatch (s : State) (w : Nat) : State := s.setMc w (patchMc (s.dom 0x2030 1))

/-- An image that passes is in force on every powered position. -/
def State.loadPatch (s : State) (l : List Byte) : State :=
  let s := (s.setDom 0x2030 1 l).dset 0x2030 3 0
  let s := s.dset 0x2030 2 (if l.isEmpty then 0 else (parsePatch l).id)
  (List.range 144).foldl (fun s w => if (s.pos w).st = 2 then s else s.applyPatch w) s

/-! ## Registers (Table 11-7) -/

/-- IDLE: no skein on the position and every slot FREE. -/
def State.mcIdle (s : State) (w : Nat) : Bool :=
  match s.logOf w with
  | none => true
  | some k =>
    let d := s.disp k
    d.running.isNone && d.ready.isEmpty && d.saved.isEmpty && (s.seqr k).slots.all fun e => e.2.state = .free

/-- Read 8 bytes at offset off (from the window's base) of position w's patch registers and RAMs. -/
def State.mcRead (s : State) (w off : Nat) : Nat :=
  let m := s.mc w
  if off = 0x2E000 then b2n m.pen + b2n m.lock * 2 + b2n (s.mcIdle w) * 4 + m.patchId.toNat * 2 ^ 16
  else if 0x2E100 ≤ off && off < 0x2E180 then (tabGet 0 m.redir ((off - 0x2E100) / 8)).toNat
  else if 0x2E400 ≤ off && off < 0x2E600 then (tabGet 0 m.disp ((off - 0x2E400) / 8)).toNat
  else if 0x2E800 ≤ off && off < 0x2EC00 then
    (List.range 4).foldl (fun a j => a + tabGet 0 m.micro ((off - 0x2E800) / 2 + j) * 2 ^ (16 * j)) 0
  else if 0x2F000 ≤ off && off < 0x30000 then
    let i := (off - 0x2F000) / 32
    if (off - 0x2F000) % 32 < 24 then fld (tabGet 0 m.nano i) (8 * ((off - 0x2F000) % 32)) 64 else 0
  else 0

/-- Write 8 bytes at offset off; ignored while LOCK is 1 or IDLE is 0 (R353: the lock takes effect first). -/
def State.mcWrite (s : State) (w off v : Nat) : State :=
  let m := s.mc w
  if m.lock || !s.mcIdle w then s
  else if off = 0x2E000 then
    if bitOf v 1 then s.setMc w { m with lock := true }
    else s.setMc w { m with pen := bitOf v 0, patchId := BitVec.ofNat 32 (fld v 16 32) }
  else if 0x2E100 ≤ off && off < 0x2E180 then
    let x := BitVec.ofNat 64 (fld v 0 13 + fld v 16 13 * 2 ^ 16 + fld v 31 1 * 2 ^ 31)
    s.setMc w { m with redir := tabSet 0 m.redir ((off - 0x2E100) / 8) x }
  else if 0x2E400 ≤ off && off < 0x2E600 then
    let x := BitVec.ofNat 64 (fld v 0 10 + fld v 16 13 * 2 ^ 16 + fld v 32 13 * 2 ^ 32 + fld v 63 1 * 2 ^ 63)
    s.setMc w { m with disp := tabSet 0 m.disp ((off - 0x2E400) / 8) x }
  else if 0x2E800 ≤ off && off < 0x2EC00 then
    let i := (off - 0x2E800) / 2
    s.setMc w { m with micro := (List.range 4).foldl (fun t j => tabSet 0 t (i + j) (fld v (16 * j) 16)) m.micro }
  else if 0x2F000 ≤ off && off < 0x30000 && (off - 0x2F000) % 32 < 24 then
    let i := (off - 0x2F000) / 32
    s.setMc w { m with nano := tabSet 0 m.nano i (setFld (tabGet 0 m.nano i) (8 * ((off - 0x2F000) % 32)) 64 v) }
  else s

end Sys2Proof.Machine
end

