-- ==== Sys2Proof/Machine/Hbm.lean ====
section
/-! DEFINITION. What memory reports of its data, and the HBM requests of a spindle: its 32 entries, reserved octets and
Throughput service (04 R162, R163, 05 R177, R187 to R195, R209). -/

namespace Sys2Proof.Machine
open Sys2Proof

/-! ## Corrected and uncorrectable data (05 R177, R189, 17 Table 17-9) -/

/-- The hank that holds scratch address a. -/
def hankOf (a : Nat) : Nat := (a - 0x010000000000) / 0x400000

/-- HANK_UE of the hank that holds a counts, and the error is logged. -/
def State.hankUe (s : State) (a : Nat) : State :=
  let x := a - 0x010000000000
  let n := hankOf a
  let h := s.hank n
  ((s.setHank n { h with
    ueCount := min (h.ueCount + 1) 0xFFFF
    ueRow := fld x 11 11
    ueBgroup := fld x 8 3
    ueBank := fld x 5 3 }).logErr 0x2001 n).l2Event (80 + n / 4)

/-- HANK_CE of the hank that holds a counts. -/
def State.hankCe (s : State) (a : Nat) : State :=
  let h := s.hank (hankOf a)
  s.setHank (hankOf a) { h with ce := sat32 (h.ce + 1) }

/-- Uncorrectable report of an HBM read (R189): counted per pseudo-channel and logged. -/
def State.hbmUe (s : State) (pc : Nat) : State :=
  ((s.dset (0x5030 + pc) 2 (sat32 (s.dget (0x5030 + pc) 2 + 1))).logErr 0x2002 pc).l2Event (8 + pc / 32)

/-- Corrected report of an HBM read: counted per pseudo-channel. -/
def State.hbmCe (s : State) (pc : Nat) : State := s.dset (0x5030 + pc) 1 (sat32 (s.dget (0x5030 + pc) 1 + 1))

/-- The pseudo-channel of an HBM address (R187). -/
def pcOf (a : Nat) : Nat := a / 256 % 128

def isScratch (a : Nat) : Bool := decide (0x010000000000 ≤ a) && decide (a < 0x010010000000)
def isHbm (a : Nat) : Bool := a < 0x001800000000

/-- An uncorrectable read at a scratch or HBM address; in the reserved range it is fatal (17 Table 17-9). -/
def State.memUe (s : State) (a : Nat) : State :=
  if isScratch a then s.hankUe a
  else if isHbm a then
    let s := s.hbmUe (pcOf a)
    if 0x0017FC000000 ≤ a then s.fatal 0x3002 (fld a 8 29) else s
  else s

/-- A corrected read at a scratch or HBM address. -/
def State.memCe (s : State) (a : Nat) : State :=
  if isScratch a then s.hankCe a else if isHbm a then s.hbmCe (pcOf a) else s

/-- What the check bits of data read at a change. -/
def State.memCheck (s : State) (a : Nat) (chk : DataCheck) : State :=
  match chk with
  | .ok => s
  | .corrected => s.memCe a
  | .uncorrectable => s.memUe a

/-! ## A spindle's request entries (04 R163, 05 R193) -/

/-- The context of the skein that runs on a spindle; none for a handler begun from the idle wait. -/
def State.vCtx (s : State) (k : Nat) : Option Nat := (s.disp k).running.map fun x => x.ctx

def State.reqs (s : State) (k : Nat) : List HbmReq := tabGet [] s.hbmReqs k
def State.setReqs (s : State) (k : Nat) (l : List HbmReq) : State := { s with hbmReqs := tabSet [] s.hbmReqs k l }

/-- One of the 32 entries is free. -/
def State.entryFree (s : State) (k : Nat) : Bool := decide ((s.reqs k).length < 32)

/-- Issue a request; it arrives after every request issued before it. -/
def State.addReq (s : State) (k : Nat) (r : HbmReq) : State :=
  let s := s.setReqs k (s.reqs k ++ [{ r with stamp := s.clock.arrivals }])
  { s with clock := { s.clock with arrivals := s.clock.arrivals + 1 } }

/-- Spindle k has a request outstanding on pseudo-channel pc. -/
def State.asksOn (s : State) (k pc : Nat) : Bool := (s.reqs k).any fun r => r.block % 128 = pc

/-! ## Octets (05 R190 to R195) -/

def State.rsvOct (s : State) (pc j : Nat) : BitVec 16 := tabGet 0 s.rsv (128 * pc + j)

/-- Octet j carries data under the pattern in force on pseudo-channel pc (Table 5-9). -/
def State.dataOctet (s : State) (pc j : Nat) : Bool :=
  j % 4 ≠ 3 && !(j % 16 = 13 && (s.stack (pc / 32)).hot)

/-- Octet j of pseudo-channel pc is reserved for spindle k in the active bytes (Table 5-10). -/
def State.octetActive (s : State) (k pc j : Nat) : Bool :=
  let r := s.rsvOct pc j
  r.getLsbD 15 && bvFld r 8 7 = k

/-- Spindle k holds a reserved octet on pseudo-channel pc. -/
def State.holdsOctet (s : State) (k pc : Nat) : Bool := (List.range 128).any fun j => s.octetActive k pc j

/-- The spindle's partition has a guarantee: without a reserved octet it is not served. The others use Throughput service
(R195). -/
def State.guaranteed (s : State) (k : Nat) : Bool :=
  match s.modeOf k with
  | some m => m = 1 || m = 2 || m = 4 || m = 5
  | none => false

/-- Some data octet of pseudo-channel pc is open to Throughput service: it is not reserved, or it is lent, which an octet of a
spindle with a request there, and one of a partition in M4, is not (R194, R209). -/
def State.openOctet (s : State) (pc : Nat) : Bool :=
  (List.range 128).any fun j =>
    let r := s.rsvOct pc j
    let k := bvFld r 8 7
    s.dataOctet pc j && (!r.getLsbD 15 || (!s.asksOn k pc && !s.inM4 k))

/-- Where partition p's next Trace unit goes (07 R257). -/
def Part.traceAt (x : Part) : Nat := x.trBase + 256 * (x.trWr % x.trUnits.toNat)

/-- A Trace output unit that arrived before stamp t waits on pseudo-channel pc. -/
def State.traceAsks (s : State) (pc t : Nat) : Bool :=
  s.traceOut.any fun u => decide (u.stamp < t) && (s.part u.part).traceAt / 256 % 128 = pc

/-- Throughput service reaches a request that arrived at stamp t on pseudo-channel pc: an octet is open and no Throughput
request that arrived earlier waits (R195). -/
def State.throughput (s : State) (pc t : Nat) : Bool :=
  s.openOctet pc && !s.traceAsks pc t && s.hbmReqs.all fun e =>
    s.guaranteed e.1 || s.holdsOctet e.1 pc || e.2.all fun r => r.block % 128 ≠ pc || decide (t ≤ r.stamp)

/-- A request of spindle k on pseudo-channel pc that arrived at stamp t is served (R193 to R195). -/
def State.octetServes (s : State) (k pc t : Nat) : Bool :=
  s.holdsOctet k pc || (!s.guaranteed k && s.throughput pc t)

/-- The HBM units that n bytes at a touch. -/
def unitsOf (a n : Nat) : List Nat := (List.range ((a % 256 + n + 255) / 256)).map fun i => a / 256 + i

/-- What the check bits of a read say, where no command's operand says it: a free choice (log entry 40). -/
def State.freeRead (s : State) : DataCheck × State :=
  let r := s.fresh
  (if !r.1.getLsbD 0 then .ok else if r.1.getLsbD 1 then .corrected else .uncorrectable, r.2)

/-- Such a read at address a. -/
def State.freeCheck (s : State) (a : Nat) : State := let r := s.freeRead; r.2.memCheck a r.1

/-- An access of n bytes at HBM address a that spindle k makes now would be served before the end of the command: an entry is
free for each unit, and an octet with no earlier request of the spindle. -/
def State.hbmNow (s : State) (k a n : Nat) : Bool :=
  decide ((s.reqs k).length + (unitsOf a n).length ≤ 32) &&
    (unitsOf a n).all fun u => !s.asksOn k (u % 128) && s.octetServes k (u % 128) s.clock.arrivals

/-- A Throughput request of a master outside the spindles on the n bytes at a is served now (R195). -/
def State.matrixNow (s : State) (a n : Nat) : Bool := (unitsOf a n).all fun u => s.throughput (u % 128) s.clock.arrivals

/-- The reserved slots that spindle k uses for units u (02 R95): eight for each in an octet of its own. -/
def State.slotsFor (s : State) (k : Nat) (u : List Nat) : Nat := 8 * (u.filter fun b => s.holdsOctet k (b % 128)).length

/-- An access of spindle k to HBM that is served at once uses its reserved octets (02 R95). -/
def State.useOctets (s : State) (k a n : Nat) : State :=
  let u := s.slotsFor k (unitsOf a n)
  if u = 0 then s else s.modDisp k fun d => { d with running := d.running.map fun x => { x with hbmSlots := x.hbmSlots + u } }

/-- A skein of stream c on spindle k, SEQ seq when it is given, running or waiting, has used n reserved slots (02 R95). -/
def State.countSlots (s : State) (k c : Nat) (seq : Option Nat) (n : Nat) : State :=
  let one (x : Skein) : Skein :=
    if x.ctx = c && (match seq with | some q => x.seq = q | none => true) then { x with hbmSlots := x.hbmSlots + n } else x
  if n = 0 then s
  else s.modDisp k fun d => { d with
    running := d.running.map one
    ready := d.ready.map one
    saved := d.saved.map fun p => (p.1, one p.2) }

/-- Write bytes by address. -/
def State.pokeAll (s : State) (l : List (Nat × Byte)) : State := l.foldl (fun s e => s.poke e.1 [e.2]) s

end Sys2Proof.Machine
end

