-- ==== Sys2Proof/Machine/QueueOps.lean ====
section
/-! DEFINITION. The queue engine's operations on one queue (06 R210 to R229, R238, R522), before arrivals. -/

namespace Sys2Proof.Machine
open Sys2Proof

/-! ## Context fields (06 Table 6-12) -/

def stFree : Nat := 0
def stAdmitting : Nat := 1
def stOpen : Nat := 2
def stDraining : Nat := 3
def stSuspended : Nat := 4
def stBackground : Nat := 5

def ctxState (e : Rec64) : Nat := rfld e 0 0 3
def ctxSporadic (e : Rec64) : Bool := rfld e 0 3 1 = 1
def ctxLatePol (e : Rec64) : Bool := rfld e 0 4 1 = 1
def ctxPart (e : Rec64) : Nat := rfld e 0 5 4
def ctxSpindle (e : Rec64) : Nat := rfld e 0 9 7
def ctxPrick (e : Rec64) : Nat := rfld e 0 16 16
def ctxChkEn (e : Rec64) : Bool := rfld e 0 47 1 = 1
def ctxPeriod (e : Rec64) : Nat := rfld e 1 0 30
def ctxDeadline (e : Rec64) : Nat := rfld e 1 32 30
def ctxInq (e : Rec64) : Nat := rfld e 3 0 16
def ctxOutq (e : Rec64) : Nat := rfld e 3 16 16
def ctxJitter (e : Rec64) : Nat := rfld e 3 32 29
def ctxOffset (e : Rec64) : Nat := rfld e 4 0 32
def ctxEport (e : Rec64) : Nat := rfld e 5 56 5
def ctxTimed (e : Rec64) : Bool := rfld e 5 61 1 = 1
/-- A skein is released and has neither committed nor aborted. -/
def ctxRun (e : Rec64) : Bool := rfld e 5 62 1 = 1

/-- A saturating 16-bit counter of word w at bit lo. -/
def rinc (e : Rec64) (w lo : Nat) : Rec64 := rset e w lo 16 (min (rfld e w lo 16 + 1) 65535)

/-- A stream that can have skeins or arrivals: not FREE, not ADMITTING. -/
def ctxLive (e : Rec64) : Bool := 2 ≤ ctxState e && ctxState e ≤ 5

/-! ## Prickings (06 Table 6-13) -/

/-- Number of prickings P (R232). -/
def State.prickCount (s : State) : Nat := s.prickUnits * 1024
/-- Entry number of pricking i. -/
def State.prickEntry (s : State) (i : Nat) : Nat := 262144 - s.prickCount + i
/-- A context index names a stream context. -/
def State.isContext (s : State) (c : Nat) : Bool := decide (c < 262144 - s.prickCount)

/-- Pricking i; an index of P or more is unused (all zero: VALID 0). -/
def State.prick (s : State) (i : Nat) : Rec64 := if i < s.prickCount then s.entry (s.prickEntry i) else 0

def prEntry (x : Rec64) : Nat := rfld x 0 0 48
def prCodeReg (x : Rec64) : Nat := rfld x 0 48 2
def prCt (x : Rec64) : Bool := rfld x 0 50 1 = 1
def prTr (x : Rec64) : Bool := rfld x 0 51 1 = 1
def prPart (x : Rec64) : Nat := rfld x 0 52 4
def prValid (x : Rec64) : Bool := rfld x 0 56 1 = 1
def prBudget (x : Rec64) : Nat := rfld x 1 0 32
def prMacc (x : Rec64) : Nat := rfld x 1 32 16
def prSh (x : Rec64) : Nat := rfld x 1 48 10
/-- The pseudo-channel mask, 128 bits. -/
def prPcMask (x : Rec64) : Nat := fld x.toNat 128 128
def prHankMask (x : Rec64) : Nat := rfld x 4 0 64
def prInCred (x : Rec64) : Nat := rfld x 5 0 8
def prOutCred (x : Rec64) : Nat := rfld x 5 8 4
def prShuttleNs (x : Rec64) : Nat := rfld x 6 0 32
def prEgressNs (x : Rec64) : Nat := rfld x 6 32 32

/-! ## Queues -/

/-- Producer classes (Table 6-3); 7 stands for a master that is of no class. -/
def pcClassifier : Nat := 0
def pcHost : Nat := 1
def pcShuttle : Nat := 2
def pcRuntime : Nat := 3
def pcStream : Nat := 4
def pcNone : Nat := 7

def Queue.occ (q : Queue) : Nat := q.items.length

/-- The cells that hold the items of a region's queues. -/
def State.regionCells (s : State) (r : Nat) : List Nat :=
  (s.qe.queues.filter fun e => e.2.owner.toNat = r && e.2.state ≠ .free).flatMap fun e => e.2.items.map fun i => i.cell

/-- Items of a region's queues (RGN_CFG.USED, staged items excluded). -/
def State.regionUsed (s : State) (r : Nat) : Nat :=
  s.qe.queues.foldl (fun a e => if e.2.owner.toNat = r && e.2.state ≠ .free then a + e.2.items.length else a) 0

/-- Σ CLIM over a region's queues (R217). -/
def State.regionClim (s : State) (r : Nat) : Nat :=
  s.qe.queues.foldl (fun a e => if e.2.owner.toNat = r && e.2.state ≠ .free then a + e.2.clim else a) 0

def State.regionBase (s : State) (r : Nat) : Nat :=
  s.qe.queues.foldl (fun a e => if e.2.owner.toNat = r && e.2.state ≠ .free then a + e.2.baseClim else a) 0

/-- Park reserves of a partition's streams (R219). -/
def State.regionPark (s : State) (r : Nat) : Nat :=
  s.streams.foldl (fun a e => if rfld (s.entry e.1) 0 5 4 = r && rfld (s.entry e.1) 0 0 3 ≠ 0 then a + e.2.park else a) 0

/-! ## Watermark groups (R227) -/

def State.wmGroup (s : State) (g : Nat) : WmGroup := tabGet {} s.qe.wm g
def State.setWm (s : State) (g : Nat) (x : WmGroup) : State := { s with qe := { s.qe with wm := tabSet {} s.qe.wm g x } }

/-- LEVEL: the sum of OCC over member queues. -/
def State.wmLevel (s : State) (g : Nat) : Nat :=
  s.qe.queues.foldl (fun a e => if e.2.wmen && e.2.wmg.toNat = g then a + e.2.items.length else a) 0

/-- Update a group after OCC of a member, or its configuration, has changed. -/
def State.wmUpdate (s : State) (g : Nat) : State :=
  let x := s.wmGroup g
  let l := s.wmLevel g
  let a := x.en && (if x.asserted then decide (x.low < l) else decide (x.high ≤ l))
  if a = x.asserted then s
  else
    let s := s.setWm g { x with asserted := a, change := true }
    if x.irqen then s.l2Event (256 + g) else s

/-- FCO[n] (R227). -/
def State.fco (s : State) (n : Nat) : Bool :=
  s.qe.wm.any fun e => e.2.en && e.2.fcoen && e.2.fcopin.toNat = n && e.2.asserted

/-! ## Operations held by a scrub of the region (R215) -/

/-- A scrub of the queue's region holds its operations. -/
def State.regionHolds (s : State) (q : Nat) : Bool := (s.region (s.queue q).owner.toNat).scrubbing

def State.holdOp (s : State) (q : Nat) (op : QOp) : State :=
  let r := (s.queue q).owner.toNat
  s.setRegion r { s.region r with heldOps := (s.region r).heldOps ++ [(q, op)] }

/-! ## Records and cells -/

def State.poolFree (s : State) (f : Nat → Nat) : State := { s with qe := { s.qe with free := f s.qe.free } }

/-- Cells in the pool (R210). -/
def poolCells : Nat := 524288

/-- The first cell from c on that holds no item; n bounds the cells that hold one. -/
def firstFree (alloc : Tab Bool) : Nat → Nat → Nat
  | 0, c => c
  | n + 1, c => if tabGet false alloc c then firstFree alloc n ((c + 1) % poolCells) else c

/-- Where the pool view lies (R210). -/
def poolBase : Nat := 0x013000000000

/-- The engine writes the cells of l: a distaff core may hold a reservation there (08 R286). -/
def State.cellsWritten (s : State) (l : List Nat) : State :=
  { s with cores := l.foldl (fun cs c => clearResv cs (poolBase + 64 * c) 64) s.cores }

/-- Allocate a cell: which free one is a free choice (R211). The item is written to it. -/
def State.takeCell (s : State) : Nat × State :=
  let x := s.qe
  let c := firstFree x.alloc x.alloc.length (Config.cellOf x.serial % poolCells)
  (c, { s with qe := { x with serial := x.serial + 1, alloc := tabSet false x.alloc c true } }.cellsWritten [c])

/-- The cells of items that are gone are free, but for those that a sweep has freed before. That a free writes the cell no
rule says (DESIGN CHOICE, log entry 136). -/
def State.freeCells (s : State) (l : List QItem) : State :=
  let cells := (l.filter fun i => !i.lost).map fun i => i.cell
  { s with qe := { s.qe with alloc := cells.foldl (fun t c => tabSet false t c false) s.qe.alloc } }.cellsWritten cells

/-- Items of l whose cells no item of m occupies. -/
def goneItems (l m : List QItem) : List QItem := l.filter fun i => m.all fun j => j.cell ≠ i.cell

/-- What the engine keeps in the link word of each item: its cell, HELD, the next cell and STATUS (Table 6-1). -/
def Queue.links (x : Queue) : List (Nat × Bool × Option Nat × BitVec 16) :=
  x.items.mapIdx fun n i => (i.cell, decide (n < x.heldN), (x.items[n + 1]?).map fun (y : QItem) => y.cell, i.status)

/-- x with the link words that the engine writes, because they differ from those of old, read again as it writes them. -/
def Queue.relink (old x : Queue) : Queue :=
  { x with items := (x.items.zip x.links).map fun p => if old.links.contains p.2 then p.1 else { p.1 with link := none } }

/-- Write a queue record whose items or read position have changed, and the link words of its cells. -/
def State.linkQueue (s : State) (q : Nat) (x : Queue) : State :=
  let old := s.queue q
  (s.setQueue q (old.relink x)).cellsWritten ((x.links.filter fun w => !old.links.contains w).map Prod.fst)

/-- Write a queue record whose items have changed: its watermark group, the bitmap and the free set follow. freed is the
number of cells returned to the free set, taken the number taken from it. -/
def State.putQueue (s : State) (q : Nat) (x : Queue) (taken freed : Nat) : State :=
  let s := s.freeCells (goneItems (s.queue q).items x.items)
  let s := (s.linkQueue q x).poolFree fun n => n + freed - taken
  if x.wmen then s.wmUpdate x.wmg.toNat else s

/-- A push refused under R220: DROPS and ERR. -/
def Queue.refuse (x : Queue) : Queue := { x with drops := sat32 (x.drops + 1), err := true }

/-- Read an item record (Table 6-5): an item when the length is 1 to 56. -/
def itemOf (rec : Rec64) : Option QItem :=
  let len := bvFld rec 448 8
  if 1 ≤ len && len ≤ 56 then some { len := len, payload := rec.setWidth 448 } else none

/-- CONT of a window push (Table 6-5). -/
def recCont (rec : Rec64) : Bool := bitOf rec.toNat 457

/-- The pop record (Table 6-5); payload bytes beyond the length read 0. -/
def popRecord (x : QItem) (poison : Bool) : Rec64 :=
  BitVec.ofNat 512 (fld x.payload.toNat 0 (8 * x.len) + x.len * 2 ^ 448 + b2n poison * 2 ^ 456 + x.status.toNat * 2 ^ 464)

/-- A plain acceptance of one item (R220): none when it is refused. The record is updated either way; R522 covers FREE
and BROKEN queues. -/
def State.pushItem (s : State) (q cls : Nat) (it : Option QItem) : Bool × State :=
  let x := s.queue q
  match x.state, it with
  | .free, _ => (false, s.setQueue q { x with drops := sat32 (x.drops + 1) })
  | .broken, _ => (false, s.setQueue q x.refuse)
  | .active, none => (false, s.setQueue q x.refuse)
  | .active, some i =>
    if x.prod.toNat = cls && decide (x.occ < x.clim) then
      let n := s.takeCell
      (true, n.2.putQueue q { x with items := x.items ++ [{ i with cell := n.1 }] } 1 0)
    else (false, s.setQueue q x.refuse)

/-- What an accepted push or commit notifies (QNOTE and QMSIX, 15 Table 15-6). -/
def State.notifyQueue (s : State) (q : Nat) : State :=
  let x := s.queue q
  let s := x.note.foldl (fun s n => s.l1EventAt n.1 n.2) s
  match x.msix with
  | some v => s.msixEvent x.owner.toNat v
  | none => s

/-- OHELD of the stream whose output queue this is: skeins with outputs not wholly released (Table 6-12). -/
def Queue.oheld (x : Queue) : Nat := (x.items.filterMap fun (i : QItem) => i.seq).eraseDups.length

def State.updOheld (s : State) (q : Nat) : State :=
  match (s.queue q).outb with
  | some c => s.setEntry c (rset (s.entry c) 0 38 7 (min (s.queue q).oheld 64))
  | none => s

/-! ## POP, MARK, REWIND, RELEASE, FLUSH (R225) -/

/-- What the check bits of a cell's words count, word by word (R213): under SECDED a single-bit error is corrected, under byte
parity every detected error poisons its word. -/
def Region.count (r : Region) (secded : Bool) (chk : CellCheck) : Region :=
  if secded then { r with ce := sat32 (r.ce + chk.single.toNat), pe := min (r.pe + chk.worse.toNat) 0xFFFF }
  else { r with pe := min (r.pe + chk.single.toNat + chk.worse.toNat) 0xFFFF }

/-- A payload word is poisoned (R213). -/
def poisoned (secded : Bool) (chk : CellCheck) : Bool := chk.worse ≠ 0 || (!secded && chk.single ≠ 0)

/-- The delivery of an item: what its check bits say, and the words with a poison marking, which PE counts too (R213). -/
def Region.deliver (r : Region) (secded : Bool) (chk : CellCheck) (i : QItem) : Region :=
  { r.count secded chk with pe := min ((r.count secded chk).pe + i.poison.toNat) 0xFFFF }

def State.secded (s : State) (r : Nat) : Bool := s.qe.boot || (s.region r).enc

/-- A link word fails its check: the queue becomes BROKEN (R214, Tables 16-8 and 17-9). -/
def State.breakQueue (s : State) (q : Nat) : State :=
  let x := s.queue q
  let r := x.owner.toNat
  let s := s.setRegion r { s.region r with ue := min ((s.region r).ue + 1) 0xFFFF }
  (((s.setQueue q { x with state := .broken }).l2Event 12).logErr 0x2003 q).emergency 0x0030 q

/-- The queue takes the output of a timed stream: the egress scheduler alone consumes it (15 R448). -/
def State.timedOut (s : State) (x : Queue) : Bool :=
  match x.outb with
  | some c => ctxTimed (s.entry c)
  | none => false

/-- POP (R225): the item at the read position, or none; the items of a timed stream's output are for the egress scheduler and no pop
finds one (15 R448; DEDUCED, log entry 159). -/
def State.popItem (s : State) (q : Nat) (chk : CellCheck) : Option (QItem × Bool) × State :=
  let x := s.queue q
  match x.state, x.items[x.heldN]? with
  | .active, some i =>
    if s.timedOut x then (none, s)
    else if chk.link then (none, s.breakQueue q)
    else
      let r := x.owner.toNat
      let p := i.poison ≠ 0 || poisoned (s.secded r) chk
      let s := if chk = .ok && i.poison = 0 then s else s.setRegion r ((s.region r).deliver (s.secded r) chk i)
      if x.flush then (some (i, p), (s.putQueue q { x with items := x.items.drop 1 } 0 1).updOheld q)
      else (some (i, p), s.linkQueue q { x with heldN := x.heldN + 1 })
  | _, _ => (none, s)

/-- MARK. -/
def State.markQueue (s : State) (q : Nat) : State :=
  let x := s.queue q
  if x.state = .active && !x.flush then s.setQueue q { x with mark := some x.heldN } else s.setQueue q { x with err := true }

/-- The items from place n on are unread again: no skein holds them. -/
def Queue.unread (x : Queue) (n : Nat) : Queue :=
  { x with heldN := n, items := x.items.mapIdx fun j i => if n ≤ j then { i with holder := none } else i }

/-- REWIND. -/
def State.rewindQueue (s : State) (q : Nat) : State :=
  let x := s.queue q
  if x.state = .active && !x.flush then s.linkQueue q (x.unread (x.mark.getD 0)) else s.setQueue q { x with err := true }

/-- Free the n oldest held items of a Keep-mode queue; the marked item's release clears the mark. -/
def Queue.freeHeld (x : Queue) (n : Nat) : Queue :=
  { x with
    items := x.items.drop n
    heldN := x.heldN - n
    mark := match x.mark with
      | some m => if n ≤ m then some (m - n) else none
      | none => none }

/-- The items that satisfy p go, wherever they stand: the read position and the mark keep their places among the others; the
marked item's release clears the mark. -/
def Queue.without (x : Queue) (p : QItem → Bool) : Queue :=
  let before (n : Nat) : Nat := ((x.items.take n).filter p).length
  { x with
    items := x.items.filter fun i => !p i
    heldN := x.heldN - before x.heldN
    mark := match x.mark with
      | some m => if (x.items[m]?).any p then none else some (m - before m)
      | none => none }

/-- The held items that the ended skein seq of stream c popped go (R226); a BROKEN queue keeps what it holds (R522). -/
def State.releaseEnded (s : State) (q c seq : Nat) : State :=
  let x := s.queue q
  let mine (i : QItem) : Bool := i.holder = some (c, seq)
  if x.state = .broken || x.flush || !x.items.any mine then s
  else (s.putQueue q (x.without mine) 0 (x.items.filter mine).length).updOheld q

/-- RELEASE n: the number freed. -/
def State.releaseQueue (s : State) (q n : Nat) : Nat × State :=
  let x := s.queue q
  if x.state = .active && !x.flush then
    let m := min n x.heldN
    let y := x.freeHeld m
    (m, (s.putQueue q { y with err := y.err || decide (x.heldN < n) } 0 m).updOheld q)
  else (0, s.setQueue q { x with err := true })

/-- FLUSH. -/
def State.flushQueue (s : State) (q : Nat) : State :=
  let x := s.queue q
  if x.state = .active && x.flush then (s.putQueue q { x with items := [] } 0 x.items.length).updOheld q
  else s.setQueue q { x with err := true }

/-- Every item goes, in either mode (07 R256, 17 R493). -/
def State.emptyQueue (s : State) (q : Nat) : State :=
  let x := s.queue q
  (s.putQueue q { x with items := [], heldN := 0, mark := none } 0 (x.items.filter fun i => !i.lost).length).updOheld q

/-- The items in cells l of an arrival that is discarded go (02 R60 to R63); a queue that has become BROKEN keeps what it holds
(R522). -/
def State.dropCells (s : State) (q : Nat) (l : List Nat) : State :=
  let x := s.queue q
  let mine (i : QItem) : Bool := l.contains i.cell
  if x.state = .broken then s
  else s.putQueue q { x.without mine with contDrop := true } 0 (x.items.filter mine).length

/-- The cells that a held discard of queue q names already. -/
def State.heldDrops (s : State) (q : Nat) : List Nat :=
  (s.region (s.queue q).owner.toNat).heldOps.flatMap fun o => match o with
    | (r, .drop l) => if r = q then l else []
    | _ => []

/-- The cells of the n newest items of queue q, those of a held discard apart. -/
def State.tailCells (s : State) (q n : Nat) : List Nat :=
  (((s.queue q).items.map fun i => i.cell).filter fun c => !(s.heldDrops q).contains c).reverse.take n

/-- The n newest items go; a scrub of the region holds it (R215). -/
def State.dropTail (s : State) (q n : Nat) : State :=
  let l := s.tailCells q n
  if s.regionHolds q then s.holdOp q (.drop l) else s.dropCells q l

def qstateCode : QState → Nat
  | .free => 0
  | .active => 1
  | .broken => 2

/-- The STATUS word (Table 6-4). -/
def Queue.statusWord (x : Queue) : Nat :=
  x.occ + x.clim * 2 ^ 20 + b2n x.flush * 2 ^ 40 + b2n x.err * 2 ^ 41 + qstateCode x.state * 2 ^ 42

/-! ## CREATE and DELETE (R217, R214) -/

/-- CREATE: RESULT 0 done, 1 not FREE, 4 no quota. -/
def State.createQueue (s : State) (q : Nat) : State :=
  let x := s.queue q
  let r := x.owner.toNat
  if x.state ≠ .free then s.setQueue q { x with result := 1 }
  else if (s.region r).quota < s.regionClim r + s.regionPark r + x.baseClim then s.setQueue q { x with result := 4 }
  else s.setQueue q { x with state := .active, clim := x.baseClim, items := [], heldN := 0, mark := none, result := 0 }

/-- The staged items that name queue q go, with their cells (R214). -/
def State.sweepStaged (s : State) (q : Nat) : State :=
  match (s.queue q).outb with
  | none => s
  | some c =>
    let clear (x : Skein) : Skein := if x.ctx = c then { x with staged := [] } else x
    let gone (x : Skein) : List QItem := if x.ctx = c then x.staged else []
    let l := s.disps.flatMap fun e => (match e.2.running with | some x => gone x | none => []) ++ e.2.saved.flatMap fun p => gone p.2
    let s := s.freeCells l
    if l.isEmpty then s
    else { s with disps := tabMap {} (fun d => { d with
        running := d.running.map clear
        saved := d.saved.map fun p => (p.1, clear p.2) }) s.disps }

/-- Some staged item names queue q (R217): its output-bound stream's running, saved or ready skeins hold one. -/
def State.stagedFor (s : State) (q : Nat) : Bool :=
  match (s.queue q).outb with
  | none => false
  | some c => s.disps.any fun e =>
      (match e.2.running with | some k => k.ctx = c && !k.staged.isEmpty | none => false) ||
      e.2.saved.any fun p => p.2.ctx = c && !p.2.staged.isEmpty

/-- The record a queue has when it becomes FREE: its settings stay, its contents and bindings go. -/
def Queue.freed (x : Queue) : Queue :=
  { x with state := .free, items := [], heldN := 0, mark := none, clim := 0, note := [], msix := none,
           egress := none, wmen := false, contDrop := false }

/-- A link word that the engine walks through in queue q's items fails its check (R214). -/
def State.linkBreaks (s : State) (q : Nat) (fails : Bool) : Bool :=
  fails && (s.queue q).state = .active && !(s.queue q).items.isEmpty

/-- The engine walks the links of queue q's items: where one fails its check, the queue becomes BROKEN (R214). -/
def State.walk (s : State) (q : Nat) (fails : Bool) (go : State) : State :=
  if s.linkBreaks q fails then s.breakQueue q else go

/-- DELETE: RESULT 2 not empty, 3 bound, 5 not found; of a BROKEN queue it starts the sweep of R214. Of a queue that is bound
and also holds items 2 is answered, and staged items alone give 2 (DESIGN CHOICE: R217 orders no codes, and gives staged items
none of their own). -/
def State.deleteQueue (s : State) (q : Nat) (linkFails : Bool := false) : State :=
  let x := s.queue q
  match x.state with
  | .free => s.setQueue q { x with result := 5 }
  | .broken => s.setQueue q { x with busy := true, result := 0 }
  | .active =>
    if !x.items.isEmpty || s.stagedFor q then
      (s.walk q linkFails s).setQueue q { (s.walk q linkFails s).queue q with result := 2 }
    else if x.inb.isSome || x.outb.isSome then s.setQueue q { x with result := 3 }
    else s.setQueue q { x.freed with result := 0 }

/-- The item occupies cell c. -/
def QItem.isIn (i : QItem) (c : Nat) : Bool := i.cell = c && !i.lost

/-- The queue and the place in it of the item that holds cell c. -/
def findCell (c : Nat) : Tab Queue → Option (Nat × Nat)
  | [] => none
  | e :: r => match e.2.items.findIdx? fun i => i.isIn c with
    | some i => some (e.1, i)
    | none => findCell c r

/-- The item in cell c leaves the lists it is staged in: those of skeins and of parked commits. -/
def State.unstage (s : State) (c : Nat) : State :=
  let out (l : List QItem) : List QItem := l.filter fun i => !i.isIn c
  let skein (x : Skein) : Skein := { x with staged := out x.staged }
  { s with
    qe := { s.qe with queues := tabMap {} (fun x => { x with
      parked := x.parked.map fun p => { p with items := out p.items } }) s.qe.queues }
    disps := tabMap {} (fun d => { d with
      running := d.running.map skein
      saved := d.saved.map fun p => (p.1, skein p.2) }) s.disps }

/-- A parked commit holds an item in cell c. -/
def State.parkedIn (s : State) (c : Nat) : Bool :=
  s.qe.queues.any fun e => match e.2.parked with | some p => p.items.any fun i => i.isIn c | none => false

/-- An allocated cell whose link word fails its check is freed by a sweep; the queue that holds it becomes BROKEN (R214), with
OCC as it stood (R522). -/
def State.sweepCell (s : State) (c : Nat) : State :=
  if !tabGet false s.qe.alloc c then s
  else
    let s := { s with qe := { s.qe with alloc := tabSet false s.qe.alloc c false } }.cellsWritten [c]
    match findCell c s.qe.queues with
    | some (q, n) =>
      let s := s.poolFree fun n => n + 1
      let s := if (s.queue q).state = .active then s.breakQueue q else s
      let x := s.queue q
      s.setQueue q { x with items := x.items.modify n fun i => { i with lost := true } }
    | none => (if s.parkedIn c then s.poolFree fun n => n + 1 else s).unstage c

/-- The sweep of a BROKEN queue has ended (R214): every allocated cell that names the queue, or fails its check, is free,
and the queue is FREE. -/
def State.sweepEnd (s : State) (q : Nat) (failing : List Nat) : State :=
  let x := s.queue q
  if x.state = .broken && x.busy then
    let s := (s.sweepStaged q).emptyQueue q
    let s := s.setQueue q { (s.queue q).freed with busy := false, result := 0 }
    failing.foldl State.sweepCell s
  else s

end Sys2Proof.Machine
end

