-- ==== Sys2Proof/Machine/Trace.lean ====
section
/-! DEFINITION. The Trace recorder of a spindle: its units, and how they reach the partition's Trace ring (07 R257 to R259). -/

namespace Sys2Proof.Machine
open Sys2Proof

/-! ## Trace units (07 R257, Table 7-9a) -/

/-- Write unit bytes at HBM address a for stream c of spindle k: through a free request entry, else behind the units that
wait for one (R258). -/
def State.traceWrite (s : State) (k c a : Nat) (l : List Byte) : State :=
  if (s.disp k).traceq.isEmpty && s.entryFree k then
    s.addReq k { src := .trace, ctx := some c, block := a / 256, write := true, data := l.mapIdx fun j b => (a + j, b) }
  else s.modDisp k fun d => { d with traceq := d.traceq ++ [(c, a, l)] }

/-- Waiting trace units take the entries that are free, in order. -/
def State.traceDrain (s : State) (k : Nat) : State :=
  let q := (s.disp k).traceq
  if q.isEmpty then s
  else q.foldl (fun s u => s.traceWrite k u.1 u.2.1 u.2.2) (s.modDisp k fun d => { d with traceq := [] })

/-- The next position of partition p's Trace ring; WR counts the unit. -/
def State.traceSlot (s : State) (p : Nat) : Option (Nat × State) :=
  let x := s.part p
  if x.trUnits = 0 then none
  else some (x.traceAt, s.setPart p { x with trWr := x.trWr + 1 })

def padUnit (unit : List Byte) : List Byte := unit ++ List.replicate (256 - unit.length) 0

/-- Write one 256-byte unit of stream c, of partition p, at the ring position WR mod UNITS and count it. -/
def State.traceUnit (s : State) (k p c : Nat) (unit : List Byte) : State :=
  match s.traceSlot p with
  | none => s
  | some (a, s1) => s1.traceWrite k c a (padUnit unit)

/-- A unit of stream c is not acknowledged yet (R258). -/
def State.traceWaits (s : State) (k c : Nat) : Bool :=
  (s.disp k).traceq.any (fun u => u.1 = c) || (s.reqs k).any fun r => r.src = .trace && r.ctx = some c

/-- Header unit (type 1). -/
def traceHeader (k : Nat) (x : Skein) (chkval : Nat) : List Byte :=
  [1, 0] ++ bytesOfNat 2 k ++ bytesOfNat 4 x.seq ++ bytesOfNat 8 x.rel ++ bytesOfNat 4 x.ctx ++ bytesOfNat 4 chkval ++
    bytesOfNat 2 x.known.toNat

/-- Item unit (type 2) and output unit (type 4): one to three ITEM64 records at bytes 64 on. -/
def traceItems (ty : Nat) (seq : Nat) (l : List Rec64) : List Byte :=
  bytesOfNat 1 ty ++ bytesOfNat 1 l.length ++ bytesOfNat 2 0 ++ bytesOfNat 4 seq ++ List.replicate 56 0 ++
    l.flatMap fun r => bytesOfNat 64 r.toNat

/-- Frame unit (type 3), at most 248 bytes. -/
def traceFrame (seq : Nat) (l : List Byte) : List Byte :=
  [3, 0] ++ bytesOfNat 2 l.length ++ bytesOfNat 4 seq ++ l

/-- Cut a list into pieces of n, at most f of them. -/
def chunks {α : Type} (n : Nat) : Nat → List α → List (List α)
  | 0, _ => []
  | _, [] => []
  | f + 1, l => l.take n :: chunks n f (l.drop n)

/-- The ITEM64 record of an item (03 Table 3-11). Payload bytes at and above the item's length read 0 (DESIGN CHOICE, log entry 145:
R130 does not say what they read). -/
def item64 (i : QItem) (poison : Bool) : Rec64 :=
  BitVec.ofNat 512 (fld i.payload.toNat 0 (8 * i.len) + i.len * 2 ^ 448 + b2n poison * 2 ^ 456)

/-- Is a release at rel recorded in M5 (R247, R265)? -/
def Part.records (x : Part) (rel : Nat) : Bool :=
  (match x.recFrom with | some t => decide (t ≤ rel) | none => false) &&
    match x.recTo with | some t => decide (rel < t) | none => true

/-- The items that skein x has popped and that no unit holds yet are written, at most three (R257). -/
def State.traceLeft (s : State) (k : Nat) (x : Skein) : State :=
  if x.tracedItems.isEmpty then s
  else s.traceUnit k (ctxPart (s.entry x.ctx)) x.ctx (traceItems 2 x.seq (x.tracedItems.take 3))

/-- Write the item units that are complete (three items), or all of them. -/
def State.traceFlush (s : State) (k : Nat) (all : Bool) : State :=
  match (s.disp k).running with
  | none => s
  | some x =>
    if x.tracedItems.isEmpty || (!all && x.tracedItems.length < 3) then s
    else (s.traceLeft k x).modDisp k fun d => { d with running := some { x with tracedItems := x.tracedItems.drop 3 } }

/-- The recorder's part of a pop by a skein: the item, and the slot bytes of an ingress descriptor. -/
def State.tracePop (s : State) (k : Nat) (x : Skein) (i : QItem) (poison : Bool) (cls : Nat) : State :=
  if !x.traced then s
  else
    let p := ctxPart (s.entry x.ctx)
    let s := (s.modDisp k fun d =>
      { d with running := some { x with tracedItems := x.tracedItems ++ [item64 i poison] } }).traceFlush k false
    if cls = pcClassifier && i.len = 32 then
      let a := fld i.payload.toNat 64 48
      let n := fld i.payload.toNat 112 16
      (chunks 248 (n / 248 + 1) (s.bytes a n)).zipIdx.foldl
        (fun s l => (s.freeCheck (a + 248 * l.2)).traceUnit k p x.ctx (traceFrame x.seq l.1)) s
    else s

/-! ## Output units (R259) -/

/-- The units of stream c that its next commit finds unwritten are dropped into TRACE_LOST of their partitions. -/
def State.traceSettle (s : State) (c : Nat) : State :=
  let mine (u : TraceOut) : Bool := u.ctx = some c
  (s.traceOut.filter mine).foldl (fun s u =>
    s.setPart u.part { s.part u.part with traceLost := sat32 ((s.part u.part).traceLost + 1) })
    { s with traceOut := s.traceOut.filter fun u => !mine u }

/-- Stream c ends: no commit of it follows, and its waiting units stay to be written. -/
def State.traceClose (s : State) (c : Nat) : State :=
  { s with traceOut := s.traceOut.map fun u => if u.ctx = some c then { u with ctx := none } else u }

/-- Request Throughput service for an output unit (05 R195). -/
def State.traceAsk (s : State) (p c : Nat) (unit : List Byte) : State :=
  { s with
    traceOut := s.traceOut ++ [⟨some c, p, s.clock.arrivals, padUnit unit⟩]
    clock := { s.clock with arrivals := s.clock.arrivals + 1 } }

/-- A commit of stream c, recorded or not: the units of the commit before settle; with TRACE_OUTPUTS 1 those of a recorded one
ask for Throughput service. -/
def State.traceOutputs (s : State) (p c seq : Nat) (items : List QItem) (recorded : Bool) : State :=
  let s := s.traceSettle c
  if !recorded || s.dget (0x3000 + p) 13 = 0 || (s.part p).trUnits = 0 then s
  else ((chunks 3 items.length (items.map fun i => item64 i false)).map fun u => traceItems 4 seq u).foldl
    (fun s u => s.traceAsk p c u) s

/-- Output unit u is written at the ring position WR; on a retired pseudo-channel the write is not served (05 R199). -/
def State.traceServe (s : State) (u : TraceOut) : State :=
  match ({ s with traceOut := s.traceOut.erase u }).traceSlot u.part with
  | some (a, s1) => if s1.pcRetired a then s1 else s1.poke a u.data
  | none => { s with traceOut := s.traceOut.erase u }

/-- Throughput service may serve the oldest output unit in a nanosecond: in which, no rule bounds (R195). -/
def State.traceTick (s : State) : State :=
  match s.traceOut with
  | [] => s
  | u :: _ =>
    let r := s.fresh
    if r.1.getLsbD 0 && s.throughput ((s.part u.part).traceAt / 256 % 128) u.stamp then r.2.traceServe u else r.2

end Sys2Proof.Machine
end

