-- ==== Sys2Proof/Machine/Streams.lean ====
section
/-! DEFINITION. Stream contexts and prickings read by field, the classification of arrivals, releases, and the end of a
skein and of a stream (02 R57 to R64, R84 to R95, 06 R222 to R226, R233 to R236). -/

namespace Sys2Proof.Machine
open Sys2Proof

/-! ## Budgets and levels -/

/-- Llock, cycles (CORE) (05 R208, Table 5-15). -/
def llock : Nat := 168
/-- Be = B + M × Llock (02 R54). -/
def prBe (x : Rec64) : Nat := prBudget x + prMacc x * llock

/-- A stream whose skeins run at the background level: those of a partition in M3, in every state (R78, R79). -/
def State.ctxBg (s : State) (e : Rec64) : Bool := ctxState e = stBackground || (s.part (ctxPart e)).mode = 3

/-- A stream that counts in the admission tests: ADMITTING, OPEN, DRAINING or SUSPENDED, and not of a partition in M3. -/
def State.ctxCounts (s : State) (e : Rec64) : Bool := ctxState e ≤ 4 && (s.part (ctxPart e)).mode ≠ 3

/-! ## Status bits (02 Table 2-8) -/

def sLate : BitVec 16 := 1
def sHeld : BitVec 16 := 2
def sWindow : BitVec 16 := 4
def sSupply : BitVec 16 := 8
def sThermal : BitVec 16 := 16
def sCredit : BitVec 16 := 32
def sPoison : BitVec 16 := 64
def sDeadlineMissed : BitVec 16 := 128
def sLaunchMissed : BitVec 16 := 256
def sEgress : BitVec 16 := 512

/-! ## Classification of an arrival (02 R61, Table 2-4) -/

inductive ArrKind where
  | onTime
  | late
  | early
  | excess
deriving DecidableEq, Repr

/-- What an arrival is: its kind, its window, and the instant it is released at or held to. -/
structure Arr where
  kind : ArrKind
  win : Int
  instant : Nat
deriving DecidableEq, Repr

/-- Window and offset of a timestamp: n with φ + nT ≤ ts < φ + (n + 1)T. -/
def windowOf (ts phase period : Nat) : Int := (Int.ofNat ts - Int.ofNat phase) / Int.ofNat (max period 1)
/-- Start of window n, 0 when it lies before time 0. -/
def windowStart (n : Int) (phase period : Nat) : Nat := (Int.ofNat phase + n * Int.ofNat period).toNat

/-- A PERIODIC arrival: the gap of T − Jr − 1 instants after a window is halved, and its middle instant belongs to the
first half (R61). -/
def classifyPeriodic (ts phase period jitter : Nat) (last : Option Int) : Arr :=
  let n := windowOf ts phase period
  let off := (Int.ofNat ts - (Int.ofNat phase + n * Int.ofNat period)).toNat
  let gap := period - jitter - 1
  let half := (gap + 1) / 2
  let used (m : Int) : Bool := match last with | some l => m ≤ l | none => false
  if off ≤ jitter then
    if used n then ⟨.excess, n, ts⟩ else ⟨.onTime, n, ts⟩
  else if off - jitter - 1 < half then
    if used n then ⟨.excess, n, ts⟩ else ⟨.late, n, ts⟩
  else if used (n + 1) then ⟨.excess, n + 1, ts⟩
  else ⟨.early, n + 1, windowStart (n + 1) phase period⟩

/-- A SPORADIC arrival against the previous release time. -/
def classifySporadic (ts period : Nat) (prev : Option Nat) : Arr :=
  match prev with
  | none => ⟨.onTime, 0, ts⟩
  | some r => if r + period ≤ ts then ⟨.onTime, 0, ts⟩ else ⟨.early, 0, r + period⟩

/-! ## Reports -/

/-- A skip or an excess arrival: the counter and the event (R61, R63). -/
def State.skipEvent (s : State) (c kind : Nat) : State :=
  (s.setEntry c (rinc (s.entry c) 5 40)).streamEvent c kind 0 0 0

/-- The status bits a skein on spindle k takes from supply and heat (17 R497, R500). -/
def State.envStatus (s : State) (k : Nat) : BitVec 16 :=
  (if s.rst.warn ≠ 0 || (s.disp k).supply then sSupply else 0) |||
    (if s.rst.prot || (s.disp k).thermal then sThermal else 0)

/-! ## Releases (02 R61 to R63, 01 R44, R48) -/

/-- The spindle a release at rel goes to: after a migration, the old one before the boundary (R48). -/
def State.releaseSpindle (s : State) (c rel : Nat) : Nat :=
  match (s.aux c).migFrom with
  | some m => if rel < m.2 then m.1 else ctxSpindle (s.entry c)
  | none => ctxSpindle (s.entry c)

/-- HELDP and NEXT_REL of the context follow the bookkeeping (Table 6-12). -/
def State.syncCtx (s : State) (c : Nat) : State :=
  let e := s.entry c
  let a := s.aux c
  let e := rset e 5 63 1 (b2n (!a.held.isEmpty))
  let next :=
    if ctxSporadic e then (match a.prevRel with | some r => r + ctxPeriod e | none => rfld e 2 0 64)
    else match a.win with
      | some n => windowStart (n + 1) a.phase (ctxPeriod e)
      | none => rfld e 2 0 64
  s.setEntry c (rset e 2 0 64 next)

/-- Release a skein of stream c: SEQ counts it, RUN is set, and its release event starts for the dispatcher. -/
def State.releaseSkein (s : State) (c rel : Nat) (win : Int) (status : BitVec 16) (late : Bool) (items : Nat) : State :=
  let e := s.entry c
  let seq := (rfld e 7 16 32 + 1) % 2 ^ 32
  let e := rset (rset e 7 16 32 seq) 5 62 1 1
  let e := if late then rinc e 5 24 else e
  let k := s.releaseSpindle c rel
  let st := status ||| s.envStatus k
  (s.setEntry c e).modDisp k fun d => { d with events := d.events ++
    [{ ctx := c, seq := seq, rel := rel, win := win, status := st, late := late, arrived := false, known := st, items := items }] }

/-- The arrival's items are released at the tail of the input queue (R60 to R63). -/
def State.dropArrival (s : State) (q items : Nat) : State := (s.dropTail q items).updOheld q

def State.keepArrival (s : State) (q : Nat) : State := s.setQueue q { s.queue q with contDrop := false }

/-- What becomes of an arrival that is not discarded: released at once, or held. -/
def State.admitArrival (s : State) (c ts items : Nat) (x : Arr) (status : BitVec 16) (late : Bool) : State :=
  let e := s.entry c
  let a := s.aux c
  let blocked := ctxRun e || !a.held.isEmpty
  let a := { a with
    win := if ctxSporadic e then a.win else some x.win
    prevRel := if ctxSporadic e then some x.instant else a.prevRel }
  if blocked || x.kind = .early then
    (s.setAux c { a with held := a.held ++ [⟨ts, x.win, x.instant, blocked, status ||| sHeld, late, items⟩] }).syncCtx c
  else ((s.setAux c a).releaseSkein c x.instant x.win status late items).syncCtx c

/-- The window that an arrival belongs to is used, whatever becomes of the arrival: a further one of that window is excess (R61). -/
def State.useWindow (s : State) (c : Nat) (x : Arr) : State :=
  if ctxSporadic (s.entry c) || x.kind = .excess then s
  else (s.setAux c { s.aux c with win := some x.win }).syncCtx c

/-- An arrival of stream c with items items in its input queue q (02 R60 to R63, 07 R264). -/
def State.arrive (s : State) (c ts q items : Nat) : State :=
  let e := s.entry c
  let a := s.aux c
  let drop := s.dropArrival q items
  let st := ctxState e
  let x := if ctxSporadic e then classifySporadic ts (ctxPeriod e) a.prevRel
    else classifyPeriodic ts a.phase (ctxPeriod e) (ctxJitter e) a.win
  let gone := drop.useWindow c x
  if st = stSuspended then gone
  else if !(st = stOpen || st = stDraining || st = stBackground) then drop
  else if s.node ≠ .operational then gone.skipEvent c 2
  else
    let closed : Bool := match a.closeAt with
      | some t => t ≤ x.instant || ctxRun e || !a.held.isEmpty
      | none => false
    match x.kind with
    | .excess => drop.skipEvent c 3
    | .late =>
      if !ctxLatePol e then gone.skipEvent c 2
      else if closed then gone
      else (s.keepArrival q).admitArrival c ts items x (sLate ||| if ctxTimed e then sWindow else 0) true
    | .early =>
      if closed then gone
      else (s.keepArrival q).admitArrival c ts items x (sHeld ||| if ctxTimed e then sWindow else 0) false
    | .onTime =>
      if closed then gone
      else (s.keepArrival q).admitArrival c ts items x 0 false

/-- A push that was accepted into q, at time ts: an arrival when q is a stream's input queue (R223). cont: its item joins
the arrival made by the previous push. -/
def State.pushArrival (s : State) (q ts : Nat) (cont : Bool) : State :=
  match (s.queue q).inb with
  | none => s
  | some c =>
    if cont then
      if (s.queue q).contDrop then s.dropArrival q 1
      else
        let a := s.aux c
        match a.held.getLast? with
        | some h => s.setAux c { a with held := a.held.dropLast ++ [{ h with items := h.items + 1 }] }
        | none => s
    else s.arrive c ts q 1

/-! ## A stream becomes FREE (02 R58, 06 R218, R219) -/

/-- Statistics outlive the stream until the next open; the rest of the bookkeeping goes. -/
def StreamAux.freed (a : StreamAux) : StreamAux :=
  { cyclesLast := a.cyclesLast, cyclesMax := a.cyclesMax, slackLast := a.slackLast, slackMin := a.slackMin,
    hbmLast := a.hbmLast, tempLast := a.tempLast, skeins := a.skeins, recorded := a.recorded }

/-- The stream becomes FREE (one of a partition in M4 leaves no statistics that others could read, 07 R255): reservations return,
bindings end, its armed list goes (13 R390), CLOSED is reported. -/
def State.freeStream (s : State) (c : Nat) : State :=
  let e := s.entry c
  let a := s.aux c
  let s := (s.traceClose c).streamEvent c 6 0 0 (rfld e 7 16 32)
  let lower (x : Queue) (n : Nat) : Nat := if x.state = .broken then x.clim else x.clim - n
  let qi := s.queue (ctxInq e)
  let s := s.setQueue (ctxInq e) { qi with inb := none, clim := lower qi a.inCred }
  let qo := s.queue (ctxOutq e)
  let s := s.setQueue (ctxOutq e) { qo with outb := none, clim := lower qo a.outCred }
  let k := ctxSpindle e
  let sh := s.shuttle k
  let s := s.setShuttle k { sh with armed := tabDel sh.armed c }
  let s := s.setEntry c (rset (rset (rset e 0 0 3 0) 5 62 2 0) 0 38 7 0)
  let p := ctxPart e
  let s := if (s.part p).pend then s.setPart p { s.part p with since := s.now } else s
  s.setAux c (if (s.part p).mode = 4 then {} else a.freed)

/-- A DRAINING stream with nothing left becomes FREE (R58). -/
def State.freeIfDone (s : State) (c : Nat) : State :=
  let e := s.entry c
  if ctxState e = stDraining && !ctxRun e && (s.aux c).held.isEmpty then s.freeStream c else s

/-- A counter of the context that does not saturate below its top loses one. -/
def rdec (e : Rec64) (w lo : Nat) : Rec64 :=
  if rfld e w lo 16 = 0 || rfld e w lo 16 = 0xFFFF then e else rset e w lo 16 (rfld e w lo 16 - 1)

/-- A release of stream c at or after its close instant t, that an arrival of that very instant made before the close: it is
discarded without a skein (R58, R94), with its items, which are the newest ones of the input queue. -/
def State.dropRelease (s : State) (k c : Nat) (v : RelEvent) : State :=
  let e := s.entry c
  let e := rset (rset e 7 16 32 ((rfld e 7 16 32 + 0xFFFFFFFF) % 2 ^ 32)) 5 62 1 0
  let s := (s.setEntry c (if v.late then rdec e 5 24 else e)).dropArrival (ctxInq e) v.items
  s.modDisp k fun d => { d with events := d.events.erase v }

/-- Held arrivals at or after the close instant, and all of a SUSPENDED stream, are discarded (R58, R60): the newest
items of the input queue are theirs. -/
def State.dropHeld (s : State) (c : Nat) (keep : HeldArr → Bool) : State :=
  let a := s.aux c
  let gone := (a.held.filter fun h => !keep h).foldl (fun n h => n + h.items) 0
  let s := s.setAux c { a with held := a.held.filter keep }
  let s := if gone = 0 then s else s.dropArrival (ctxInq (s.entry c)) gone
  s.syncCtx c

/-! ## Replay (07 R260, R265) -/

/-- Where unit u of a partition's recording lies (R257). -/
def Part.unitAt (x : Part) (u : Nat) : Nat := x.trBase + 256 * (u % max x.trUnits.toNat 1)

/-- Unit u of partition p's recording. One on a retired pseudo-channel is not served (05 R199): it is passed over (log entry 102).
-/
def State.traceRead (s : State) (p u : Nat) : List Byte :=
  let a := (s.part p).unitAt u
  if s.pcRetired a then List.replicate 256 0 else s.bytes a 256

def unitField (l : List Byte) (a n : Nat) : Nat := natOfBytes ((l.drop a).take n)

/-- The ITEM64 records of an item unit, as items. -/
def unitItems (l : List Byte) : List QItem :=
  (List.range (min (unitField l 1 1) 3)).filterMap fun i => itemOf (BitVec.ofNat 512 (unitField l (64 + 64 * i) 64))

/-- Write the frame units back to the slots their descriptor items name, in order. -/
def State.replayFrames (s : State) : List QItem → List (List Byte) → State
  | [], _ => s
  | i :: r, fs =>
    let n := fld i.payload.toNat 112 16
    let m := ceilDiv n 248
    if i.len = 32 && 0 < n && m ≤ fs.length then
      (s.poke (fld i.payload.toNat 64 48) ((fs.take m).flatMap fun l => (l.drop 8).take (unitField l 2 2))).replayFrames r (fs.drop m)
    else s.replayFrames r fs

/-- Push items to queue q by its own producer class; the number taken. -/
def State.replayPush (s : State) (q : Nat) : List QItem → Nat × State
  | [] => (0, s)
  | i :: r =>
    let a := s.pushItem q (s.queue q).prod.toNat (some { i with seq := none })
    let b := a.2.replayPush q r
    (b.1 + b2n a.1, b.2)

/-- Replay the next skein of partition p's running replay, and the following ones while no skein results. A recording that
holds fewer headers than REPLAY_COUNT ends the replay in state 2 (DESIGN CHOICE: R260 names no end for it). -/
def State.replayNext (s : State) (p : Nat) : Nat → State
  | 0 => s
  | fuel + 1 =>
    let x := s.part p
    let c := x.replayCtx
    if x.replay ≠ 1 then s
    else if ctxState (s.entry c) ≠ stBackground then s.setPart p { x with replay := 4 }
    else if x.replayLeft = 0 then s.setPart p { x with replay := 2 }
    else if s.regionHolds (ctxInq (s.entry c)) then s.holdOp (ctxInq (s.entry c)) (.replay p)
    else
      let left := (x.trWr % 2 ^ 32 + 2 ^ 32 - x.replayAt) % 2 ^ 32
      if x.trUnits.toNat < left then s.setPart p { x with replay := 3 }
      else
        let idx := (List.range left).map fun i => x.trWr - left + i
        let isHead (u : Nat) : Bool :=
          let l := s.traceRead p u
          unitField l 0 1 = 1 && (match x.replayRec with | some r => unitField l 16 4 = r | none => true)
        match idx.find? isHead with
        | none => s.setPart p { x with replay := 2 }
        | some u =>
          let h := s.traceRead p u
          let rec_ := unitField h 16 4
          let after := ((idx.dropWhile fun v => v ≠ u).drop 1).takeWhile fun v =>
            let l := s.traceRead p v
            !(unitField l 0 1 = 1 && unitField l 16 4 = rec_)
          let s := (u :: after).foldl (fun s v => if s.pcRetired (x.unitAt v) then s else s.freeCheck (x.unitAt v)) s
          let mine := (after.map fun v => s.traceRead p v).filter fun l => unitField l 4 4 = unitField h 4 4
          let items := (mine.filter fun l => unitField l 0 1 = 2).flatMap unitItems
          let s := s.replayFrames items (mine.filter fun l => unitField l 0 1 = 3)
          let q := ctxInq (s.entry c)
          let s := s.setEntry c (rset (s.entry c) 4 32 32 (unitField h 20 4))
          let s := s.setPart p { s.part p with
            replayAt := (u + 1) % 2 ^ 32, replayLeft := x.replayLeft - 1, replayRec := some rec_ }
          let r := s.replayPush q items
          let s := if r.1 = 0 then r.2 else r.2.arrive c (unitField h 8 8) q r.1
          if ctxRun (s.entry c) || !(s.aux c).held.isEmpty then s else s.replayNext p fuel

/-- The replay into context c goes on when its skein has ended. -/
def State.replayAfter (s : State) (c : Nat) : State :=
  match (List.range 16).find? fun p => (s.part p).replay = 1 && (s.part p).replayCtx = c with
  | some p => if ctxRun (s.entry c) || !(s.aux c).held.isEmpty then s else s.replayNext p ((s.part p).replayLeft + 1)
  | none => s

/-- The skein of stream c has ended at t: RUN clears and the first held arrival may be released from t on (R62). What a stream
that is
now SUSPENDED holds is discarded (DESIGN CHOICE, log entry 163: R60 does not say). -/
def State.endSkein (s : State) (c t : Nat) : State :=
  let e := s.entry c
  let s := s.setEntry c (rset e 5 62 1 0)
  let a := s.aux c
  let s := match a.held with
    | h :: r => s.setAux c { a with held := { h with instant := if h.blocked then max h.instant t else h.instant, blocked := false } :: r }
    | [] => s
  let s := match (s.aux c).closeAt with
    | some x => s.dropHeld c fun h => h.instant < x && !h.blocked
    | none => if ctxState e = stSuspended then s.dropHeld c fun _ => false else s
  ((s.syncCtx c).freeIfDone c).replayAfter c

/-! ## Skeins of a dispatcher -/

def Disp.idle (d : Disp) : Bool := d.running.isNone && d.ready.isEmpty && d.saved.isEmpty

/-- A spindle that is idle no longer marks skeins for a warning or a protection that has ended (17 R497, R500). -/
def State.idleMarks (s : State) (k : Nat) : State :=
  if (s.disp k).idle then
    s.modDisp k fun d => { d with
      supply := false
      thermal := false
      replaced := false }
  else s

/-- Statistics recorded at every commit or abort (R95). -/
def StreamAux.record (a : StreamAux) (x : Skein) (t : Nat) (committed : Bool) : StreamAux :=
  let slack : Int := Int.ofNat x.dl - Int.ofNat t
  { a with
    cyclesLast := x.cycles
    cyclesMax := max a.cyclesMax x.cycles
    slackLast := slack
    slackMin := if a.recorded then min a.slackMin slack else slack
    recorded := true
    hbmLast := x.hbmSlots
    tempLast := x.temp
    skeins := if committed then a.skeins + 1 else a.skeins }

/-- Release the items that skein seq of stream c popped in Keep mode and did not release (R226, R85); a scrub of the region
holds it (06 R215). -/
def State.releasePopped (s : State) (c seq : Nat) : State :=
  let q := ctxInq (s.entry c)
  if s.regionHolds q then
    if (s.queue q).items.any fun i => i.holder = some (c, seq) then s.holdOp q (.ended c seq) else s
  else s.releaseEnded q c seq

/-- HBM requests of a skein that has ended are dropped when they return (R59, 04 R163); they are no skein's any more. -/
def State.dropRequests (s : State) (k c : Nat) : State :=
  let l := (tabGet [] s.hbmReqs k).map fun r => if r.ctx = some c then { r with dropped := true, ctx := none } else r
  { s with hbmReqs := tabSet [] s.hbmReqs k l }

/-- A ready list of skein seq of stream c that has not started is removed (13 R390). -/
def State.dropList (s : State) (k c seq : Nat) : State :=
  let sh := s.shuttle k
  s.setShuttle k { sh with ready := sh.ready.filter fun l => l.ctx ≠ some c || l.seq ≠ seq || l.started }

/-- A VOID event for a skein with a non-zero status word (R93). -/
def State.voidEvent (s : State) (c rel : Nat) (status : BitVec 16) (seq : Nat) : State :=
  if status = 0 then s else s.streamEvent c 5 rel status.toNat seq

/-- A skein x of spindle k ends without a commit (R59, R63, R85, R87): its staged items and popped inputs go, the cause is
counted and reported, its held successor is freed. At OVERRUN_LIMIT an OPEN or BACKGROUND stream becomes SUSPENDED; a DRAINING one
goes
on to its close (R60 does not except it, and a resume could not take it back; DESIGN CHOICE, log entry 162). R95 takes the slack
to the commit time, which an aborted skein has not: it is
taken to the hoop mirror at the abort (DESIGN CHOICE, log entry 137). -/
def State.abortSkein (s : State) (k : Nat) (x : Skein) (cause : StopCause) : State :=
  let c := x.ctx
  let t := s.mirror (k / 8)
  let s := ((s.releasePopped c x.seq).freeCells x.staged).traceLeft k x
  let s := (s.dropRequests k c).dropList k c x.seq
  let s := s.setAux c ((s.aux c).record x t false)
  let s := s.setEntry c (rset (s.entry c) 7 0 16 x.status.toNat)
  let s := match cause with
    | .overrun =>
      let e := rinc (rinc (s.entry c) 5 8) 0 48
      let s := (s.setEntry c e).streamEvent c 0 x.rel x.status.toNat x.seq
      let limit := s.dget 0x2010 10
      if limit ≠ 0 && limit ≤ rfld e 0 48 16 && (ctxState e = stOpen || ctxState e = stBackground) then
        (s.setEntry c (rset e 0 0 3 stSuspended)).streamEvent c 7 x.rel x.status.toNat x.seq
      else s
    | .fault => s.streamEvent c 1 x.rel x.status.toNat x.seq
    | .late => s.streamEvent c 4 x.rel x.status.toNat x.seq
    | .forced => s
  let s := s.voidEvent c x.rel x.status x.seq
  (s.endSkein c t).idleMarks k

/-- A source in service in the state of an aborted skein completes (12 R375, R384). -/
def State.completeOf (s : State) (k : Nat) (u : Cpu) : State :=
  match u.inServ with
  | none => s
  | some n =>
    let w := s.posOf k
    let x := s.l1 w
    s.setL1 w { x with active := x.active &&& ~~~(BitVec.ofNat 64 (2 ^ n.toNat)) }

/-- What the slots of a sequencer have written to HBM and not yet sent is written: it belongs to complete elements (R85, 03
R138, R140). -/
def State.spill (s : State) (q : Seqr) : State :=
  q.slots.foldl (fun s e => (e.2.outq ++ e.2.wbuf).foldl (fun s u => s.pokeAll u.2) s) s

/-- The reserved slots that those units take on spindle k: each is a request (R95, 05 R193). -/
def State.spillSlots (s : State) (k : Nat) (q : Seqr) : Nat :=
  s.slotsFor k (q.slots.flatMap fun e => (e.2.outq ++ e.2.wbuf).map Prod.fst)

/-- The running skein of spindle k is aborted at a safe point: the controller goes to the idle wait, or stays halted, and
every VOP slot is freed (R85, 08 R290). -/
def State.abortRunning (s : State) (k : Nat) (cause : StopCause) : State :=
  match (s.disp k).running with
  | none => s
  | some x =>
    let s := s.completeOf k (s.cpu k)
    let s := s.modCore k fun c =>
      { c.drain with
        run := if c.run = .halted then .halted else .idle
        cpu := { c.drain.cpu with inServ := none, xdepth := 0, outLoad := none, resv := none } }
    let q := s.seqr k
    let s := (s.spill q).setSeqr k { q with slots := [], taps := [], halted := false, faultAtSave := false, arrived := [] }
    let s := s.modDisp k fun d => { d with running := none, ending := false, stop := none, preempt := false }
    s.abortSkein k { x with hbmSlots := x.hbmSlots + s.spillSlots k q } cause

/-- The skein of a release event, with relative deadline d, when it ends before its dispatch. R95 does not say what such a
skein records: no cycles, no slots and temperature 0 (DESIGN CHOICE). -/
def RelEvent.skein (v : RelEvent) (d : Nat) : Skein :=
  { ctx := v.ctx, seq := v.seq, rel := v.rel, dl := v.rel + d, relDl := d, bg := v.late, late := v.late,
    status := v.status, budget := 0, win := v.win }

/-- The skein of a parked commit. -/
def Parked.skein (p : Parked) : Skein :=
  { ctx := p.ctx, seq := p.seq, rel := p.rel, dl := p.dl, relDl := p.dl - p.rel, bg := p.late, late := p.late,
    status := p.status, budget := 0, cycles := p.cycles, hbmSlots := p.hbmSlots, temp := p.temp, win := p.win }

/-- Ready and saved skeins of stream c are aborted at once (R59); so are releases still on their way. -/
def State.abortWaiting (s : State) (k c : Nat) (cause : StopCause) : State :=
  let d := s.disp k
  let gone := (d.ready ++ d.saved.map Prod.snd).filter fun x => x.ctx = c
  let evs := d.events.filter fun v => v.ctx = c
  let s := s.setDisp k { d with
    ready := d.ready.filter fun x => x.ctx ≠ c
    saved := d.saved.filter fun p => p.2.ctx ≠ c
    events := d.events.filter fun v => v.ctx ≠ c }
  let s := gone.foldl (fun s x =>
    let s' := match x.image with | some i => (s.spill i.seqr).completeOf k i.cpu | none => s
    let u := match x.image with | some i => s.spillSlots k i.seqr | none => 0
    s'.abortSkein k { x with hbmSlots := x.hbmSlots + u } cause) s
  evs.foldl (fun s v =>
    s.abortSkein k (v.skein (ctxDeadline (s.entry v.ctx))) cause) s

/-- A parked commit of stream c is discarded (R59, R63, R522). -/
def State.dropParked (s : State) (c : Nat) (cause : StopCause) : State :=
  let q := ctxOutq (s.entry c)
  let x := s.queue q
  match x.parked with
  | none => s
  | some p =>
    if p.ctx ≠ c then s
    else
      let s := ((s.setQueue q { x with parked := none }).freeCells p.items).poolFree fun n => n + p.items.length
      s.abortSkein p.spindle p.skein cause

/-- The dispatcher holds a skein or a release event of stream c. -/
def Disp.holds (d : Disp) (c : Nat) : Bool :=
  (match d.running with | some x => x.ctx = c | none => false) || d.ready.any (fun x => x.ctx = c) ||
    d.saved.any (fun p => p.2.ctx = c) || d.events.any fun v => v.ctx = c

/-- The spindles a stream's skein is on: its own, or one that it migrated from (R48). -/
def State.ctxSpindles (s : State) (c : Nat) : List Nat :=
  (s.disps.filter fun e => e.2.holds c).map Prod.fst

/-- The releases of stream c at or after t go. -/
def State.dropReleases (s : State) (c t : Nat) : State :=
  (s.ctxSpindles c).foldl (fun s k =>
    (s.disp k).events.foldl (fun s v => if v.ctx = c && decide (t ≤ v.rel) then s.dropRelease k c v else s) s) s

/-- A forced close (R59): held arrivals and waiting skeins go, a running skein stops at its next safe point, and a stream
with nothing running is FREE at once. fault: a FAULT event is reported for the stream (R236, R495). -/
def State.forceCloseStream (s : State) (c : Nat) (fault : Bool) : State :=
  let e := s.entry c
  if !ctxLive e then s
  else
    let s := s.setEntry c (rset e 0 0 3 stDraining)
    let a := s.aux c
    let s := s.setAux c { a with closeAt := some 0 }
    let s := s.dropHeld c fun _ => false
    let s := if fault then s.streamEvent c 1 0 0 (rfld e 7 16 32) else s
    let sh := s.shuttle (ctxSpindle e)
    let s := s.setShuttle (ctxSpindle e) { sh with armed := tabDel sh.armed c }
    let s := (s.ctxSpindles c).foldl (fun s k =>
      let s := s.abortWaiting k c .forced
      match (s.disp k).running with
      | some x => if x.ctx = c then s.modDisp k fun d => { d with stop := some .forced, ending := false } else s
      | none => s) s
    let s := s.dropParked c .forced
    if ctxState (s.entry c) = stDraining then s.freeIfDone c else s

/-! ## The context store's check bits (06 R236) -/

/-- An uncorrectable error in an entry of the context store is counted and reported (17 Table 17-9). -/
def State.storeUe (s : State) (entry : Nat) : State :=
  (((s.dset 0x50B0 2 (sat32 (s.dget 0x50B0 2 + 1))).logErr 0x2004 entry).emergency 0x0031 entry).l2Event 13

def State.storeCe (s : State) : State := s.dset 0x50B0 1 (sat32 (s.dget 0x50B0 1 + 1))

/-- An uncorrectable context: its stream is force-closed. -/
def State.contextUe (s : State) (c : Nat) : State := (s.storeUe c).forceCloseStream c true

/-- An uncorrectable pricking i: its VALID clears, and every stream that uses it is force-closed. -/
def State.prickUe (s : State) (i : Nat) : State :=
  let n := s.prickEntry i
  let s := s.storeUe n
  let s := s.setEntry n (rset (s.entry n) 0 56 1 0)
  (s.store.filter fun e => decide (e.1 < 262144 - s.prickCount) && ctxLive e.2 && ctxPrick e.2 = i).foldl
    (fun s e => s.forceCloseStream e.1 true) s

/-- An uncorrectable word of entry e, whichever access reads it. -/
def State.entryUe (s : State) (e : Nat) : State :=
  if s.isContext e then s.contextUe e else s.prickUe (e - (262144 - s.prickCount))

/-- What the check bits say when the device reads context c and its pricking. -/
def State.storeCheck (s : State) (c : Nat) (chk : StoreCheck) : State :=
  match chk with
  | .ok => s
  | .corrected => s.storeCe
  | .contextBad => s.contextUe c
  | .prickingBad => s.prickUe (ctxPrick (s.entry c))

end Sys2Proof.Machine
end

