-- ==== Sys2Proof/Machine/Positions.lean ====
section
/-! DEFINITION. Spindle positions: power, reset, and the patch each holds (07 Table 7-5, 11 R352, 17 R494, Table 17-2). -/

namespace Sys2Proof.Machine
open Sys2Proof

def posWindow (w : Nat) : Nat := 0x014000000000 + w * 0x40000

/-- IRAM and local data RAM of a position read 0. -/
def State.zeroLocal (s : State) (w : Nat) : State := s.zeroRange (posWindow w) 0x20000

/-- The controller and the sequencer of the logical spindle at position w return to reset, in run state r. -/
def State.resetCore (s : State) (w : Nat) (r : RunState) : State :=
  match s.logOf w with
  | some k =>
    ((s.setCore k { Core.init k with run := r }).setSeqr k {}).modDisp k fun d =>
      { d with handler := false, savedHandler := none }
  | none => s

/-- Registers of the local window return to reset (Table 17-2). -/
def State.resetLocal (s : State) (w : Nat) : State := (s.setL1 w {}).setMc w {}

/-- A test of position w that a reset or a power-off cuts short is abandoned: it has no result (DESIGN CHOICE, log entry 142). -/
def State.dropTest (s : State) (w : Nat) : State :=
  let go := decide (s.rst.testGo = some (0, w))
  let s := { s with rst := { s.rst with
    tests := s.rst.tests.filter fun t => t ≠ (0, w), testGo := if go then none else s.rst.testGo } }
  if go then s.dset 0x6001 4 0 else s

/-- A position powers off: its memories and registers are lost (Table 7-5, Table 17-2). -/
def State.posOff (s : State) (w : Nat) : State :=
  (((s.dropTest w).zeroLocal w).resetLocal w).resetCore w .off |>.setPos w { off := true, st := 2 }

/-- A position that was powering on is on: its memories are zero, and the patch in force is written again (11 R352). -/
def State.posOn (s : State) (w : Nat) : State :=
  (((s.zeroLocal w).resetCore w .idle).setPos w {}).applyPatch w

/-- A position begins to power on: 20 µs (Table 7-5). -/
def State.posPower (s : State) (w : Nat) : State := s.setPos w { st := 3, due := some (s.clock.cycles + 20000) }

/-- A spindle reset begins: 2 µs (17 R486, R494). Memories are kept; POS_CTL is D in Table 17-2. test: a self-test follows. -/
def State.posReset (s : State) (w : Nat) (test : Bool) : State :=
  ((s.dropTest w).resetLocal w).resetCore w .off |>.setPos w { st := 1, due := some (s.clock.cycles + 2000), test := test }

def State.setPosFail (s : State) (w : Nat) : State := { s with rst := { s.rst with posFail := tabSet false s.rst.posFail w true } }
def State.posFailed (s : State) (w : Nat) : Bool := tabGet false s.rst.posFail w

/-- A powered-off position of spindle k powers on: a stream has come to it (02 R98). -/
def State.wakeSpindle (s : State) (k : Nat) : State :=
  if !s.oos k && (s.pos (s.posOf k)).st = 2 then s.posPower (s.posOf k) else s

end Sys2Proof.Machine
end

