-- ==== Sys2Proof/Machine/Skeins.lean ====
section
/-! DEFINITION. Readiness, dispatch, preemption, commit and the Trace recorder (02 R79 to R95, 06 R221 to R226, 07 R252,
R257 to R259, 08 R291, 13 R389, R401, 15 R447, R448). -/

namespace Sys2Proof.Machine
open Sys2Proof

/-! ## Queue operations of a skein (06 R221, R225, R226) -/

/-- A staged list whose last link word is written: an item follows it. -/
def linkLast (l : List QItem) : List QItem := l.modify (l.length - 1) fun i => { i with link := none }

/-- A push by the controller or a VOP of spindle k (R221): staged by a running skein; else a RUNTIME push. The answer is whether
it is taken; a record without a valid length is refused under R220 (Table 6-5). -/
def State.corePush (s : State) (k q : Nat) (it : Option QItem) (cont : Bool) : Bool × State :=
  match (s.disp k).running with
  | some x =>
    match it with
    | none => (false, s.setQueue q (s.queue q).refuse)
    | some i =>
      if q = ctxOutq (s.entry x.ctx) && decide (x.staged.length < prOutCred (s.prick (ctxPrick (s.entry x.ctx)))) then
        let n := (s.cellsWritten ((x.staged.getLast?.map fun y => y.cell).toList)).takeCell
        (true, n.2.modDisp k fun d => { d with running := some { x with
          staged := linkLast x.staged ++ [{ i with seq := some x.seq, cell := n.1 }] } })
      else (false, s)
  | none =>
    let r := s.pushItem q pcRuntime it
    (r.1, if r.1 then (r.2.notifyQueue q).pushArrival q (s.mirror 16) cont else r.2)

/-- A pop by the controller or a VOP of spindle k: the skein holds the item in Keep mode, takes its poison, and in M5 its
item is recorded (R226, R213, 07 R257). -/
def State.corePop (s : State) (k q : Nat) (chk : CellCheck) : Option (QItem × Bool) × State :=
  let r := s.popItem q chk
  match r.1, (s.disp k).running with
  | some (i, p), some x =>
    if q = ctxInq (s.entry x.ctx) then
      let x := { x with status := if p then x.status ||| sPoison else x.status }
      let n := (s.queue q).heldN
      let held (s : State) : State := s.setQueue q { s.queue q with
        items := (s.queue q).items.modify n fun i => { i with holder := some (x.ctx, x.seq) } }
      let s' := (if (s.queue q).flush then r.2 else held r.2).modDisp k fun d => { d with running := some x }
      (r.1, s'.tracePop k x i p (s.queue q).prod.toNat)
    else if p then (r.1, r.2.modDisp k fun d => { d with running := some { x with status := x.status ||| sPoison } })
    else r
  | _, _ => r

/-! ## Readiness (01 R44, 02 R79 to R81, 07 R252) -/

/-- The skein a release event becomes when it is ready. -/
def State.readySkein (s : State) (v : RelEvent) : Skein :=
  let e := s.entry v.ctx
  let a := s.aux v.ctx
  let d := ctxDeadline e
  let p := s.prick (ctxPrick e)
  let x : Skein :=
    { ctx := v.ctx, seq := v.seq, rel := v.rel, dl := v.rel + d, relDl := d,
      bg := v.late || s.ctxBg e, late := v.late, status := v.status, budget := prBe p, win := v.win, known := v.known,
      traced := (s.part (ctxPart e)).records v.rel }
  match a.cardEntry with
  | none => x
  | some (_, start) =>
    let frame := windowStart v.win 0 (ctxPeriod e)
    let inForce := match a.cardFrom with | some t => decide (t ≤ frame) | none => false
    if !inForce then { x with bg := true, status := x.status ||| sWindow }
    else if frame + start < v.rel || v.status &&& sHeld ≠ 0 then { x with bg := true }
    else { x with bound := !x.bg }

/-- A ready skein preempts the running one when its deadline is strictly earlier, or the running one is a background skein
and it is not; a bound skein waits for its START and is never preempted (R79, R81, R252). -/
def preempts (x y : Skein) : Bool :=
  !x.bound && !x.bg && !y.bound && (y.bg || decide (x.dl < y.dl))

/-- The armed list of the stream becomes ready with the skein's rank: background for a LATE skein or a BACKGROUND stream, else
its deadline (13 R389). -/
def State.readyList (s : State) (k : Nat) (x : Skein) : State :=
  let h := s.shuttle k
  match tabGet none (h.armed.map fun e => (e.1, some e.2)) x.ctx with
  | none => s
  | some a =>
    s.setShuttle k { h with
      armed := tabDel h.armed x.ctx
      ready := h.ready ++ [{
        ctx := some x.ctx, seq := x.seq, dl := if x.late || s.ctxBg (s.entry x.ctx) then none else some x.dl
        ready := s.clock.u, order := h.order, addr := a }]
      order := h.order + 1 }

/-- Events go to the dispatcher in order of release time (R44); equal ones by context index (DESIGN CHOICE: R44 states no
order among them). -/
def RelEvent.before (v w : RelEvent) : Bool := decide (v.rel < w.rel) || (v.rel = w.rel && decide (v.ctx < w.ctx))

/-- The first event whose release time plus 585 ns the hoop's mirror has reached. It has arrived by then: R44 bounds its way
by those 585 ns, so that RELEASE_EVENT need not have been given. -/
def State.dueEvent (s : State) (k : Nat) : Option RelEvent :=
  ((s.disp k).events.filter fun v => decide (v.rel + 585 ≤ s.mirror (k / 8))).foldl (fun b v => match b with
    | none => some v
    | some w => if v.before w then some v else b) none

/-- SKEIN_READY on spindle k; a spindle being drained holds its events (R47). -/
def State.makeReady (s : State) (k : Nat) : State :=
  let d := s.disp k
  if d.drain then s
  else
    match s.dueEvent k with
    | none => s
    | some v =>
      let x := s.readySkein v
      let pre := match d.running with | some y => preempts x y | none => false
      (s.setDisp k { d with
        events := d.events.erase v
        ready := d.ready ++ [x]
        preempt := d.preempt || pre }).readyList k x

/-! ## Choice (02 R79) -/

/-- x goes before y (R79). Background skeins of one release time go by context index (DESIGN CHOICE: R79 states their release
order only). -/
def skeinBefore (x y : Skein) : Bool :=
  if x.due ≠ y.due then x.due
  else if x.bg ≠ y.bg then y.bg
  else if x.bg then decide (x.rel < y.rel) || (x.rel = y.rel && decide (x.ctx < y.ctx))
  else decide (x.dl < y.dl) || (x.dl = y.dl && (decide (x.rel < y.rel) || (x.rel = y.rel && decide (x.ctx < y.ctx))))

/-- Skeins that may be dispatched: all but the bound ones whose START has not come. -/
def Disp.candidates (d : Disp) : List Skein :=
  (d.ready ++ d.saved.map Prod.snd).filter fun x => !x.bound || x.due

def Disp.best (d : Disp) : Option Skein :=
  d.candidates.foldl (fun b x => match b with
    | none => some x
    | some y => if skeinBefore x y then some x else some y) none

/-- Take skein x out of the ready set and the save slots. -/
def Disp.take (d : Disp) (x : Skein) : Disp :=
  { d with
    ready := d.ready.filter fun y => y.ctx ≠ x.ctx
    saved := d.saved.filter fun p => p.2.ctx ≠ x.ctx }

/-! ## First dispatch (08 Table 8-14, 03 R106, 13 R401) -/

/-- Kernel start (08 R270). -/
def kernelStart (p : Rec64) : DWord :=
  BitVec.ofNat 64 (if prCodeReg p = 0 then 0x8000000000000000 + prEntry p else prEntry p)

/-- The core state of Table 8-14; the record and XDEPTH are clear (12 R375). v0 to v31, which the table does not name, keep what
they
hold (DESIGN CHOICE, log entry 167). -/
def firstCpu (s : State) (k : Nat) (x : Skein) (c : Cpu) : Cpu :=
  let e := s.entry x.ctx
  let p := s.prick (ctxPrick e)
  { c with
    pc := kernelStart p
    st := BitVec.ofNat 64 (4 + b2n (prCt p || s.inM4 k) * 8)
    g := ((([] : Tab DWord) |> fun t => tabSet 0 t 1 (BitVec.ofNat 64 x.ctx)) |> fun t =>
      tabSet 0 (tabSet 0 (tabSet 0 (tabSet 0 (tabSet 0 t 2 (BitVec.ofNat 64 x.seq)) 3 (BitVec.ofNat 64 x.rel))
        4 (BitVec.ofNat 64 x.dl)) 5 (BitVec.ofNat 64 (ctxInq e))) 6 (BitVec.ofNat 64 (ctxOutq e)))
    fstat := 0
    svl := 0
    vstart := 0
    fctl := 0x0C
    inServ := none
    xdepth := 0
    entered := false
    resv := none
    lockBuf := none
    outLoad := none }

/-- The sequencer's start state (R106). VSLOTSEL, which R106 does not name, is 0 (DESIGN CHOICE). -/
def firstSeqr : Seqr := {}

/-- The check-unit channel at first dispatch (13 R401). -/
def firstCheck (e : Rec64) : Check :=
  if ctxChkEn e then
    let poly := rfld e 0 45 2
    let width := if poly = 2 then 16 else if poly = 3 then 24 else 32
    { poly := BitVec.ofNat 2 poly, r := BitVec.ofNat 32 (rfld e 4 32 width), lv := 0, v := false }
  else { poly := 0, r := 0xFFFFFFFF, lv := 0, v := false }

/-- The core state that a save keeps (08 R286, 09 R315). -/
def Cpu.saved (c : Cpu) : Cpu := { c.landLoad with resv := none }

/-- What a save leaves behind (R81): a controller with no record in service and an empty sequencer, since all of it is in the
image. c: the core as it was saved. -/
def State.leaveSaved (s : State) (k : Nat) (c : Core) : State :=
  (s.modCore k fun _ =>
    { c with cpu := { c.cpu with outLoad := none, resv := none, inServ := none, xdepth := 0 }, run := .idle }).setSeqr k {}

/-- Save the handler begun from the idle wait in slot 31 (12 R373). -/
def State.saveHandler (s : State) (k : Nat) : State :=
  let c := (s.core k).drain
  let s := s.modDisp k fun d => { d with
    handler := false
    savedHandler := some ⟨c.cpu.saved, c.run = .wfi, s.seqr k, s.check k⟩ }
  s.leaveSaved k c

/-- The idle wait of spindle k ends with a dispatch. A VOP that a handler left in flight there ends (DESIGN CHOICE, log entry 154:
neither 03 R131 nor R106 says what becomes of it): what its complete elements wrote to HBM is written, and its requests are
dropped when they return. -/
def State.leaveIdle (s : State) (k : Nat) : State :=
  if (s.seqr k).slots.isEmpty then s
  else (s.spill (s.seqr k)).setReqs k ((s.reqs k).map fun r => match r.src with
    | .port _ _ => if r.ctx = none && !r.write then { r with dropped := true } else r
    | _ => r)

/-- Put a saved state back exactly (R81, 03 R141): the whole core state, the sequencer, the check channel. -/
def State.restoreImage (s : State) (k : Nat) (i : Image) : State :=
  let s := s.modCore k fun c => { c with cpu := i.cpu, run := if i.wfi then .wfi else .executing }
  let s := (s.setSeqr k { i.seqr with faultAtSave := false }).setCheck k i.chk
  if i.seqr.faultAtSave then s.l1EventAt k 0 else s

/-- Dispatch or restore skein x on spindle k (R80, R81). -/
def State.dispatchSkein (s : State) (k : Nat) (x : Skein) : State :=
  let s := (s.leaveIdle k).modDisp k fun d => { d.take x with running := some { x with image := none }, preempt := false }
  match x.image with
  | some i => s.restoreImage k i
  | none =>
    let e := s.entry x.ctx
    let t := tabGet 0 s.rst.temps (k / 8)
    let s := s.modCore k fun c => { c with cpu := firstCpu s k x c.cpu, run := .executing, results := [] }
    let vf := if s.flushForced k then bvSet (bvSet firstSeqr.vfctl 2 2 3) 4 1 0 else firstSeqr.vfctl
    let s := (s.setSeqr k { firstSeqr with vfctl := vf }).setCheck k (firstCheck e)
    let s := s.modDisp k fun d => { d with running := some { x with temp := t } }
    if x.traced then s.traceUnit k (ctxPart e) x.ctx (traceHeader k x (rfld e 4 32 32)) else s

/-- The position of spindle k can run: mapped, on, its controller not halted, and the node is not in FAULT (17 R504). -/
def State.canDispatch (s : State) (k : Nat) : Bool :=
  s.node ≠ .fault && !s.oos k && !(s.disp k).drain && (s.disp k).running.isNone &&
    (s.core k).run ≠ .halted && (s.core k).run ≠ .off

/-- Restore the saved handler, if there is one. -/
def State.restoreHandler (s : State) (k : Nat) : State :=
  match (s.disp k).savedHandler with
  | none => s
  | some i => (s.modDisp k fun d => { d with savedHandler := none, handler := true }).restoreImage k i

/-- DISPATCH on spindle k: the first of the ready and preempted skeins; a handler begun from the idle wait ranks with the
background and gives way to a guaranteed skein only (12 R373); with nothing else it is restored. -/
def State.dispatchNext (s : State) (k : Nat) : State :=
  if !s.canDispatch k then s
  else
    let d := s.disp k
    match d.best with
    | some x =>
      if d.handler && x.bg then s
      else if x.bg && d.savedHandler.isSome then s.restoreHandler k
      else if d.handler then (s.saveHandler k).dispatchSkein k x
      else s.dispatchSkein k x
    | none => if d.handler then s else s.restoreHandler k

/-! ## Save (02 R81 to R83, R86) -/

/-- The lowest free slot for a skein: 0 to 30, or 31 for a background skein. -/
def Disp.freeSlot (d : Disp) (bg : Bool) : Nat :=
  if bg then 31 else ((List.range 31).find? fun i => d.saved.all fun p => p.1 ≠ i).getD 30

/-- SAVE: the running skein's state goes to a save slot when a preemption request meets a safe point and no stop is due.
With the budget counter at 0 the overrun takes effect instead (R86). Out-of-order results are written first (09 R316), an
outstanding load's data goes into the image (09 R315), and the reservation clears (08 R286). -/
def State.saveRunning (s : State) (k : Nat) : State :=
  let d := s.disp k
  match d.running with
  | none => s
  | some x =>
    if !d.preempt || d.ending || d.stop.isSome || (s.core k).run = .halted then s
    else if x.budget = 0 then s.setDisp k { d with stop := some .overrun }
    else
      let c := (s.core k).drain
      let img : Image := ⟨c.cpu.saved, c.run = .wfi, s.seqr k, s.check k⟩
      let s := s.setDisp k { d with
        running := none
        preempt := false
        saved := d.saved ++ [(d.freeSlot x.bg, { x with image := some img })] }
      s.leaveSaved k c

/-! ## Egress of a burst (15 R447, R448) -/

def txDropsSub : Nat := 7
def rxDropsSub : Nat := 6

/-- TX_DROPS and RX_DROPS of a logical port. -/
def State.portDrop (s : State) (port sub : Nat) : State :=
  s.dset (0x2110 + port) sub (sat32 (s.dget (0x2110 + port) sub + 1))

/-- The frame of an egress item (Table 15-9): address and length, when the layout holds. gov: byte 8 bit 0 may be set. -/
def egressItem (i : QItem) : Option (Nat × Nat) :=
  let x := i.payload.toNat
  let len := fld x 48 16
  if i.len = 16 && 60 ≤ len && len ≤ 9212 && fld x 64 64 = 0 then some (fld x 0 48, len) else none

/-- [a, a + n) lies wholly in one hank of hoop h that serves partition p (R448). -/
def State.inOwnHank (s : State) (h p a n : Nat) : Bool :=
  (List.range 4).any fun j =>
    let b := hankBase (4 * h + j)
    decide (b ≤ a) && decide (a + n ≤ b + 0x400000) && s.hankServes (4 * h + j) p

/-- One item of a burst: its frame is to be read, or it is dropped into TX_DROPS. acc: the frames so far, the next launch time,
and the cells of the dropped items. -/
def State.burstItem (port h p : Nat) (x : Skein) (limit tc : Nat) (acc : State × List TxFrame × Nat × List Nat) (i : QItem) :
    State × List TxFrame × Nat × List Nat :=
  let (s, fs, t, bad) := acc
  match egressItem i with
  | some (a, len) =>
    if s.inOwnHank h p a len then
      let f : TxFrame := { ctx := some x.ctx, seq := x.seq, rel := x.rel, status := x.status, bytes := s.bytes a len, at_ := t,
                           limit := limit, commit := tc, src := some ⟨ctxOutq (s.entry x.ctx), i.cell, a⟩ }
      (s, fs ++ [f], t + wireNs len ((s.portRate port).getD 400), bad)
    else (s.portDrop port txDropsSub, fs, t, bad ++ [i.cell])
  | none => (s.portDrop port txDropsSub, fs, t, bad ++ [i.cell])

/-- The item in a cell that skein seq's commit made is freed, once the egress scheduler has read or dropped its frame (R448). -/
def State.freeSent (s : State) (q cell seq : Nat) : State :=
  let x := s.queue q
  let mine (i : QItem) : Bool := i.cell = cell && i.seq = some seq
  if x.state = .broken || !x.items.any mine then s
  else (s.putQueue q (x.without mine) 0 1).updOheld q

/-- The items a commit of a timed stream hands to the egress scheduler: their frames are read from the cycle after the commit on
(R448), and an item with no frame is freed. A LATE skein's frames are untimed (02 R63). Whether an item was dropped comes
back. -/
def State.egressBurst (s : State) (k : Nat) (x : Skein) (tc : Nat) (items : List QItem) : Bool × State :=
  let e := s.entry x.ctx
  if !ctxTimed e then (false, s)
  else
    let port := ctxEport e
    let limit := x.rel + ctxOffset e + (s.aux x.ctx).egressNs
    let (s, fs, _, bad) := items.foldl (State.burstItem port (k / 8) (ctxPart e) x limit tc)
      (s, [], x.rel + ctxOffset e, [])
    let g := s.port port
    let s := s.setPort port (if x.late then { g with late := g.late ++ fs } else { g with timed := g.timed ++ fs })
    (!bad.isEmpty && !x.late, bad.foldl (fun s c => s.freeSent (ctxOutq e) c x.seq) s)

/-- The scratch read of a frame ends (R448): its bytes are those in scratch then, its item is freed, and what their check bits
say is counted. A scrub of the queue's region holds the free (06 R215). -/
def State.readFrame (s : State) (f : TxFrame) (chk : DataCheck) : TxFrame × State :=
  match f.src with
  | none => (f, s)
  | some r =>
    let s := s.memCheck r.addr chk
    ({ f with bytes := s.bytes r.addr f.bytes.length, src := none },
      if s.regionHolds r.queue then s.holdOp r.queue (.sent r.cell f.seq) else s.freeSent r.queue r.cell f.seq)

/-! ## Commit (02 R88, R92, 06 R222) -/

/-- The queue's side of a commit: STATUS is written, the items are appended, notifications go out. taken cells leave the
free set. -/
def State.appendCommit (s : State) (q taken : Nat) (status : BitVec 16) (items : List QItem) : State :=
  let y := s.queue q
  let its := items.map fun i => { i with status := status }
  ((s.putQueue q { y with items := y.items ++ its } taken 0).updOheld q).notifyQueue q

/-- A commit into a queue that is also input-bound is one arrival at its commit time (R223). -/
def State.commitArrival (s : State) (q t k : Nat) : State :=
  match (s.queue q).inb with
  | some c => s.arrive c t q k
  | none => s

/-- The context and the stream after a commit at time t with status word st (Table 6-12, R95, R60, R226). -/
def State.finishCommit (s : State) (c : Nat) (x : Skein) (t : Nat) (st : BitVec 16) : State :=
  let s := s.releasePopped c x.seq
  let e := s.entry c
  let e := rset (rset (rset (rset e 0 48 16 0) 5 0 8 (rfld e 5 0 8 + 1)) 6 0 64 t) 7 0 16 st.toNat
  let s := s.setEntry c e
  let s := s.setAux c ((s.aux c).record x t true)
  (s.voidEvent c x.rel st x.seq).endSkein c t

/-- The spindle after a commit or an abort: no skein runs and the controller waits (08 R290). -/
def State.vacate (s : State) (k : Nat) : State :=
  let s := s.modDisp k fun d => { d with running := none, ending := false, stop := none, preempt := false }
  (s.modCore k fun c => { c.drain with run := .idle }).idleMarks k

/-- A commit writes CHKVAL back (06 R234). -/
def State.writeChk (s : State) (c : Nat) : Option Word → State
  | some r => s.setEntry c (rset (s.entry c) 4 32 32 r.toNat)
  | none => s

/-- Items for a queue that is FREE are discarded, and counted in DROPS (06 R522). -/
def State.commitLost (s : State) (q n : Nat) : State :=
  let y := s.queue q
  s.setQueue q { y with drops := sat32 (y.drops + n) }

/-- COMMIT of spindle k. -/
def State.commitRunning (s : State) (k : Nat) : State :=
  let d := s.disp k
  match d.running with
  | none => s
  | some x =>
    if !d.ending then s
    else
      let c := x.ctx
      let e := s.entry c
      let q := ctxOutq e
      let chk := if ctxChkEn e then some (s.check k).r else none
      let y := s.queue q
      let n := x.staged.length
      if y.state = .broken then s.abortRunning k .fault
      else if y.state = .free then
        let t := s.mirror (k / 8)
        let st := if x.dl < t then x.status ||| sDeadlineMissed else x.status
        (((((s.commitLost q n).freeCells x.staged).traceSettle c).writeChk c chk).finishCommit c x t st).vacate k
      else if y.occ + n ≤ y.clim then
        let t := s.mirror (k / 8)
        let st := if x.dl < t then x.status ||| sDeadlineMissed else x.status
        let s := s.appendCommit q n st x.staged
        let s := s.traceOutputs (ctxPart e) c x.seq x.staged x.traced
        let b := s.egressBurst k { x with status := st } t x.staged
        let st := if b.1 then st ||| sLaunchMissed ||| sEgress else st
        let s := b.2.commitArrival q t (if ctxTimed e then 0 else n)
        ((s.writeChk c chk).finishCommit c x t st).vacate k
      else
        let p : Parked := ⟨c, x.seq, x.rel, x.dl, x.status, x.staged, x.late, x.cycles, x.hbmSlots, x.temp, x.win, chk, k⟩
        let s := (s.setQueue q { y with parked := some p }).poolFree fun f => f - n
        s.vacate k

/-- PARKED_COMMIT_COMPLETE of queue q: when the consumer's releases have made room, with CREDIT set, at the I/O-die mirror's
time; a parked commit whose queue is BROKEN is discarded (R92, R522). -/
def State.parkedComplete (s : State) (q : Nat) : State :=
  let y := s.queue q
  match y.parked with
  | none => s
  | some p =>
    if y.state = .broken then s.dropParked p.ctx .fault
    else if y.clim < y.occ + p.items.length then s
    else
      let e := s.entry p.ctx
      let t := s.mirror 16
      let st0 := p.status ||| sCredit
      let st := if p.dl < t then st0 ||| sDeadlineMissed else st0
      let s := s.setQueue q { y with parked := none }
      let x := p.skein
      if y.state = .free then
        (((((s.commitLost q p.items.length).freeCells p.items).poolFree fun f => f + p.items.length).traceSettle p.ctx).writeChk p.ctx p.chk).finishCommit p.ctx x t st
      else
      let s := s.appendCommit q 0 st p.items
      let s := s.traceOutputs (ctxPart e) p.ctx p.seq p.items ((s.part (ctxPart e)).records p.rel)
      let b := s.egressBurst p.spindle { x with status := st } t p.items
      let st := if b.1 then st ||| sLaunchMissed ||| sEgress else st
      let s := b.2.commitArrival q t (if ctxTimed e then 0 else p.items.length)
      (s.writeChk p.ctx p.chk).finishCommit p.ctx x t st

/-! ## The commands -/

def execReleaseEvent (c : CtxId) (s : State) : Host.Outcome State Fault Refusal :=
  .next ((s.ctxSpindles c.toNat).foldl (fun s k =>
    let d := s.disp k
    match d.events.find? fun v => v.ctx = c.toNat && !v.arrived with
    | some v => s.setDisp k { d with events := d.events.map fun w => if w = v then { w with arrived := true } else w }
    | none => s) s)

def execSkeinReady (k : Spindle) (s : State) : Host.Outcome State Fault Refusal := .next (s.makeReady k.toNat)

/-- HELD_RELEASE (R62): the first held arrival, at its instant and with no skein of the stream outstanding. In STOPPED it
releases no skein (07 R264). -/
def execHeldRelease (c : CtxId) (s : State) : Host.Outcome State Fault Refusal :=
  let i := c.toNat
  let a := s.aux i
  let e := s.entry i
  .next (match a.held with
    | [] => s
    | h :: r =>
      if ctxRun e || s.now < h.instant || !ctxLive e then s
      else if s.node ≠ .operational then ((s.dropHeld i fun x => x ≠ h).skipEvent i 2).freeIfDone i
      else
        let r := match r with
          | n :: t => if ctxSporadic e then { n with instant := max n.instant (h.instant + ctxPeriod e) } :: t else n :: t
          | [] => []
        let a := { a with held := r, prevRel := if ctxSporadic e then some h.instant else a.prevRel }
        ((s.setAux i a).releaseSkein i h.instant h.win h.status h.late h.items).syncCtx i)

/-- LATE_WINDOW_EXPIRY (R63): the stream's LATE skein has not committed by the start of the next window; a parked commit has
not (R88), nor has one whose commit waits after its KEND. -/
def execLateWindowExpiry (c : CtxId) (s : State) : Host.Outcome State Fault Refusal :=
  let i := c.toNat
  let e := s.entry i
  let passed (w : Int) : Bool := decide (windowStart (w + 1) (s.aux i).phase (ctxPeriod e) ≤ s.now)
  let s := match (s.queue (ctxOutq e)).parked with
    | some p => if p.ctx = i && p.late && passed p.win then s.dropParked i .late else s
    | none => s
  .next ((s.ctxSpindles i).foldl (fun s k =>
    let d := s.disp k
    let s := if d.ready.any (fun x => x.ctx = i && x.late && passed x.win) ||
        d.saved.any (fun p => p.2.ctx = i && p.2.late && passed p.2.win) ||
        d.events.any (fun v => v.ctx = i && v.late && passed v.win)
      then s.abortWaiting k i .late else s
    match (s.disp k).running with
    | some x =>
      if x.ctx = i && x.late && passed x.win && (s.disp k).stop.isNone then
        s.modDisp k fun d => { d with stop := some .late, ending := false }
      else s
    | none => s) s)

/-- DISPATCH reads the context and the pricking of the skein it takes (06 R236). -/
def execDispatch (k : Spindle) (chk : StoreCheck) (s : State) : Host.Outcome State Fault Refusal :=
  .next (if s.canDispatch k.toNat then
      (match (s.disp k.toNat).best with | some x => s.storeCheck x.ctx chk | none => s).dispatchNext k.toNat
    else s)

def execSave (k : Spindle) (s : State) : Host.Outcome State Fault Refusal := .next (s.saveRunning k.toNat)

/-- BUDGET_EXPIRY (R85): the running skein's counter is 0 and its KEND has not completed; a stop is requested. A KEND whose skein
still waits for its trace acknowledgements counts as completed (DEDUCED, log entry 164: 07 R258 counts the wait as kernel time). -/
def execBudgetExpiry (k : Spindle) (s : State) : Host.Outcome State Fault Refusal :=
  let d := s.disp k.toNat
  .next (match d.running with
    | some x =>
      if x.budget = 0 && !d.ending && d.stop.isNone then s.setDisp k.toNat { d with stop := some .overrun } else s
    | none => s)

/-- SKEIN_ABORT: the stop that is due takes effect at a safe point. -/
def execSkeinAbort (k : Spindle) (s : State) : Host.Outcome State Fault Refusal :=
  .next (match (s.disp k.toNat).stop with
    | some cause => s.abortRunning k.toNat cause
    | none => s)

/-- The region of the output queue is being scrubbed, or a trace unit of the skein is not acknowledged: the commit waits (06
R215, 07 R258). -/
def State.commitWaits (s : State) (k : Nat) : Bool :=
  match (s.disp k).running with
  | some x => s.regionHolds (ctxOutq (s.entry x.ctx)) || s.traceWaits k x.ctx
  | none => false

/-- COMMIT accesses the context (06 R236): a stream that is force-closed by it commits nothing. Trace items that no unit holds
yet are written before the commit starts (07 R257, R258). -/
def execCommit (k : Checked Spindle StoreCheck) (s : State) : Host.Outcome State Fault Refusal :=
  let d := s.disp k.val.toNat
  .next (match d.running with
    | some x =>
      if !d.ending then s
      else
        let s := s.traceFlush k.val.toNat true
        if s.commitWaits k.val.toNat then s else (s.storeCheck x.ctx k.chk).commitRunning k.val.toNat
    | none => s)

def execParkedCommitComplete (q : QueueId) (s : State) : Host.Outcome State Fault Refusal :=
  .next (if s.regionHolds q.toNat then s else s.parkedComplete q.toNat)

end Sys2Proof.Machine
end

