-- ==== Sys2Proof/Machine/Queues.lean ====
section
/-! DEFINITION. Queue windows, queue commands, region encodings and Ethernet ingress (06 R213 to R231, R522, 15 R446). -/

namespace Sys2Proof.Machine
open Sys2Proof

/-! ## Queue windows (R205, R220, R224) -/

/-- The partition a matrix master acts for; none for a master of no partition. -/
def State.masterPart (s : State) (m : Master) : Option Nat :=
  match m with
  | .hc k => s.partOf k.toNat
  | .hs k => s.partOf k.toNat
  | .pcie (.vf p) => some p.toNat
  | _ => none

/-- The master reaches the window of queue q: distaff cores reach every queue, the debug port none, the others their own
partition's; no partition owns a FREE queue (R224, R522, 05 Table 5-14). -/
def State.reachesQueue (s : State) (m : Master) (q : Nat) : Bool :=
  let x := s.queue q
  x.state ≠ .free && (match m with
    | .distaff _ => true
    | .dbg => false
    | _ => s.masterPart m = some x.owner.toNat)

/-- The producer class of a window push (R220). -/
def pushClass : Master → Nat
  | .hc _ => pcRuntime
  | .hs _ => pcShuttle
  | .pcie _ => pcHost
  | _ => pcNone

def State.answer (s : State) (r : Resp) : State := { s with resp := r }

/-- An accepted push notifies and is an arrival at rel (R223). -/
def State.pushAt (s : State) (q cls : Nat) (it : Option QItem) (cont : Bool) (rel : Nat) : State :=
  let r := s.pushItem q cls it
  if r.1 then (r.2.notifyQueue q).pushArrival q rel cont else r.2

/-- A frame's header as the classifier reads it (15 R446): KIND, EtherType, TCI of one C-tag, eCPRI ID and SEQ_ID. -/
structure RxHdr where
  kind : Nat
  etype : Nat
  tci : Option Nat
  id : Nat
  seq : Nat
deriving DecidableEq, Repr

def beAt (l : List Byte) (a n : Nat) : Nat := natOfBytesBE ((l.drop a).take n)

/-- KIND 0xFE stands for every frame that is not eCPRI revision 1 of type 0, 2 or 5. -/
def classifyFrame (l : List Byte) : RxHdr :=
  let tagged := beAt l 12 2 = 0x8100
  let a := if tagged then 16 else 12
  let etype := beAt l a 2
  let tci := if tagged then some (beAt l 14 2) else none
  let rev := beAt l (a + 2) 1 / 16
  let ty := beAt l (a + 3) 1
  if etype = 0xAEFE && rev = 1 && (ty = 0 || ty = 2 || ty = 5) then
    if ty = 5 then ⟨5, etype, tci, 0, 0⟩ else ⟨ty, etype, tci, beAt l (a + 6) 2, beAt l (a + 8) 2⟩
  else ⟨0xFE, etype, tci, 0, 0⟩

/-- The rule's key matches (R230). -/
def Rule.matches (r : Rule) (port : Nat) (h : RxHdr) : Bool :=
  r.port = port && r.kind = h.kind &&
    (match h.tci with
      | some t => bitOf r.vlan 12 && fld r.vlan 0 12 = fld t 0 12
      | none => !bitOf r.vlan 12) &&
    (h.kind = 5 || (h.kind = 0xFE && r.etype = h.etype) || (h.kind ≠ 0xFE && r.ecpriId = h.id))

/-- Every byte of [a, a + n) lies in a hank or a granule that serves partition p (R231). -/
def State.ownsRange (s : State) (p a n : Nat) : Bool :=
  if a < 0x001800000000 then
    (List.range (n / 256 + 2)).all fun i =>
      let b := a / 256 * 256 + 256 * i
      a + n ≤ b || s.hbmServes b p
  else
    decide (0x010000000000 ≤ a) && decide (a + n ≤ 0x010010000000) &&
      (List.range (n / 0x400000 + 2)).all fun i =>
        let h := (a - 0x010000000000) / 0x400000 + i
        a + n ≤ hankBase h || s.hankServes h p

/-- The descriptor item (Table 6-10). dflt: delivered by the default rule. -/
def descriptorItem (ts addr written port : Nat) (h : RxHdr) (trunc dflt : Bool) : QItem :=
  let tci := h.tci.getD 0
  { len := 32
    payload := BitVec.ofNat 448 (ts + addr * 2 ^ 64 + written * 2 ^ 112 + port * 2 ^ 128 + h.kind * 2 ^ 136 +
      h.id * 2 ^ 144 + h.seq * 2 ^ 160 + b2n trunc * 2 ^ 176 + b2n h.tci.isSome * 2 ^ 177 + b2n dflt * 2 ^ 178 +
      tci * 2 ^ 192) }

/-- The queue has a credit for a classifier push (R231 step 1). -/
def Queue.hasCredit (x : Queue) (cls : Nat) : Bool := x.state = .active && x.prod.toNat = cls && decide (x.occ < x.clim)

/-- A frame that rule i of a port, or its default rule (dflt), matched, when no scrub holds the queue (R231): credit, the slot's
memory, the item, and the rule's count of accepted frames. -/
def State.frameNow (s : State) (dflt : Bool) (i port : Nat) (r : Rule) (f : RxFrame) : State :=
  let q := r.queue
  let x := s.queue q
  let h := classifyFrame f.bytes
  let now := match tabGet none (if dflt then s.qe.defRule else s.qe.rules) i with | some y => y.n | none => r.n
  let size := 2 ^ r.slotLog2
  let n := min f.bytes.length size
  let a := r.ringBase + size * (now % max r.slots 1)
  let count (o : Option Rule) : Option Rule := o.map fun y => { y with n := y.n + 1 }
  if !x.hasCredit pcClassifier then
    if x.state = .free then s.setQueue q { x with drops := sat32 (x.drops + 1) } else s.setQueue q x.refuse
  else if !s.ownsRange x.owner.toNat a n then s.setQueue q { x with drops := sat32 (x.drops + 1) }
  else
    let s := s.poke a (f.bytes.take n)
    let s := s.pushAt q pcClassifier
      (some (descriptorItem f.ts.toNat a n port h (decide (size < f.bytes.length)) dflt)) false f.ts.toNat
    { s with qe := { s.qe with
      rules := if dflt then s.qe.rules else tabSet none s.qe.rules i (count (tabGet none s.qe.rules i))
      defRule := if dflt then tabSet none s.qe.defRule i (count (tabGet none s.qe.defRule i)) else s.qe.defRule } }

/-- A pop answered to a window. -/
def State.popOp (s : State) (q : Nat) (chk : CellCheck) : State :=
  let r := s.popItem q chk
  match r.1 with
  | some (i, p) => r.2.answer (.data (bytesOfNat 64 (popRecord i p).toNat))
  | none => r.2.answer (.data (List.replicate 64 0))

/-- A held command on a queue is done. -/
def State.endHeld (s : State) (q : Nat) : State := s.setQueue q { s.queue q with busy := false }

/-- One operation on a queue that no scrub holds; a push that a scrub held is an arrival when the engine accepts it (R223). -/
def State.queueOp (s : State) (q : Nat) (op : QOp) : State :=
  match op with
  | .push cls item cont => s.pushAt q cls (if item.len = 0 then none else some item) cont (s.mirror 16)
  | .pop chk => s.popOp q chk
  | .create => (s.endHeld q).createQueue q
  | .delete bad => (s.endHeld q).deleteQueue q bad
  | .ended c seq => s.releaseEnded q c seq
  | .drop l => (s.dropCells q l).updOheld q
  | .sent c seq => s.freeSent q c seq
  | .replay p => s.replayNext p ((s.part p).replayLeft + 1)
  | .frame dflt i port r f => s.frameNow dflt i port r f
  | .mark => s.markQueue q
  | .rewind => s.rewindQueue q
  | .release n bad => s.walk q bad (s.releaseQueue q n).2
  | .flush bad => s.walk q bad (s.flushQueue q)
  | .status => s.answer (.data (bytesOfNat 8 (s.queue q).statusWord))

/-- A window access: an error response to a master that does not reach the queue; held while the region is scrubbed. -/
def State.windowOp (s : State) (m : Master) (q : Nat) (op : QOp) (now : State → State) : State :=
  let s := s.answer .none
  if !s.reachesQueue m q then s.answer .error
  else if s.regionHolds q then s.holdOp q op
  else now s

/-- The pushed item of a record; length 0 stands for a record R220 refuses. -/
def heldItem (rec : Rec64) : QItem := (itemOf rec).getD { len := 0, payload := 0 }

def execPush (m : Master) (q : QueueId) (item : Rec64) (s : State) : Host.Outcome State Fault Refusal :=
  let op : QOp := .push (pushClass m) (heldItem item) (recCont item)
  .next (s.windowOp m q.toNat op fun s => s.queueOp q.toNat op)

def execPop (m : Master) (q : QueueId) (chk : CellCheck) (s : State) : Host.Outcome State Fault Refusal :=
  .next (s.windowOp m q.toNat (.pop chk) fun s => s.queueOp q.toNat (.pop chk))

def execMark (m : Master) (q : QueueId) (s : State) : Host.Outcome State Fault Refusal :=
  .next (s.windowOp m q.toNat .mark fun s => s.queueOp q.toNat .mark)

def execRewind (m : Master) (q : QueueId) (s : State) : Host.Outcome State Fault Refusal :=
  .next (s.windowOp m q.toNat .rewind fun s => s.queueOp q.toNat .rewind)

def execRelease (m : Master) (q : QueueId) (n : Checked (BitVec 20) Bool) (s : State) :
    Host.Outcome State Fault Refusal :=
  .next (s.windowOp m q.toNat (.release n.val.toNat n.chk) fun s => s.queueOp q.toNat (.release n.val.toNat n.chk))

def execFlush (m : Master) (q : Checked QueueId Bool) (s : State) : Host.Outcome State Fault Refusal :=
  .next (s.windowOp m q.val.toNat (.flush q.chk) fun s => s.queueOp q.val.toNat (.flush q.chk))

def execStatus (m : Master) (q : QueueId) (s : State) : Host.Outcome State Fault Refusal :=
  .next (s.windowOp m q.toNat .status fun s => s.queueOp q.toNat .status)

/-! ## Queue commands and regions -/

/-- A governor command on a queue whose region is scrubbed is held, with BUSY set (R215). -/
def State.queueCmd (s : State) (q : Nat) (op : QOp) (now : State) : State :=
  if s.regionHolds q then (s.setQueue q { s.queue q with busy := true }).holdOp q op else now

def execCreate (q : QueueId) (s : State) : Host.Outcome State Fault Refusal :=
  .next (s.queueCmd q.toNat .create (s.createQueue q.toNat))

def execDelete (q : Checked QueueId Bool) (s : State) : Host.Outcome State Fault Refusal :=
  .next (s.queueCmd q.val.toNat (.delete q.chk) (s.deleteQueue q.val.toNat q.chk))

/-- The end of the sweep of queue q (R214). A commit still parked on the queue is discarded: its items name the queue (R522). -/
def State.brokenEnd (s : State) (q : Nat) (failing : List Nat) : State :=
  let x := s.queue q
  let s := match x.parked with
    | some p => if x.state = QState.broken && x.busy then s.dropParked p.ctx .fault else s
    | none => s
  s.sweepEnd q failing

/-- The end of a sweep of queue q, which reads the allocation bitmap and fills the free set: where one of them is uncorrectable,
fatal 0x3008 follows (17 Table 17-9). -/
def State.sweepPool (s : State) (q : Nat) (found : SweepCheck) : State :=
  let t := s.brokenEnd q (found.links.map fun c => c.toNat)
  if (s.queue q).state = .broken && (s.queue q).busy && found.pool then t.fatal 0x3008 0 else t

/-- BROKEN_SWEEP_END (R214): the sweep that a DELETE started has ended; with its queue stand the allocated cells whose link words
failed their checks in it, and whether the engine's own tables did. -/
def execBrokenSweepEnd (q : Checked QueueId SweepCheck) (s : State) : Host.Outcome State Fault Refusal :=
  .next (s.sweepPool q.val.toNat q.chk)

/-- A write of ENCREQ (R215): with no item in the region it takes effect at once. -/
def State.writeEncreq (s : State) (r : Nat) (v : Bool) : State :=
  let x := s.region r
  s.setRegion r { x with encreq := v, enc := if s.regionUsed r = 0 && !x.scrubbing then v else x.enc }

def execEncreq (r : PartId) (v : Bool) (s : State) : Host.Outcome State Fault Refusal := .next (s.writeEncreq r.toNat v)

/-- SCRUB (R215): the scrub starts and holds the region's queues. -/
def State.startRegionScrub (s : State) (r : Nat) : State := s.setRegion r { s.region r with scrubbing := true }

def execRegionScrub (r : PartId) (s : State) : Host.Outcome State Fault Refusal := .next (s.startRegionScrub r.toNat)

/-- The words of a cell that the scrub cannot correct (R215): no more than the seven of the payload. -/
def scrubPoison (secded : Bool) (chk : CellCheck) (i : QItem) : BitVec 3 :=
  BitVec.ofNat 3 (min (i.poison.toNat + chk.worse.toNat + if secded then 0 else chk.single.toNat) 7)

/-- What the scrub of region r finds in a cell that holds item i of queue q: words corrected in the old encoding count, a word
that it cannot correct is written with a poison marking, which PE counts at each delivery; a link word that fails breaks the queue
(R213 to R215). -/
def State.scrubCell (s : State) (r : Nat) (f : Nat × CellCheck) : State :=
  match findCell f.1 s.qe.queues with
  | none => s
  | some (q, i) =>
    let x := s.queue q
    if x.owner.toNat ≠ r || x.state ≠ .active then s
    else if f.2.link then s.breakQueue q
    else
      let sec := s.secded r
      let s := if sec then s.setRegion r { s.region r with ce := sat32 ((s.region r).ce + f.2.single.toNat) } else s
      s.setQueue q { x with items := x.items.modify i fun it => { it with poison := scrubPoison sec f.2 it } }

/-- The scrub's end (R215): ENC = ENCREQ and the held operations proceed in order. found: what the check bits of the region's
cells said. The scrub writes each of the region's cells (08 R286). -/
def State.endRegionScrub (s : State) (r : Nat) (found : List (Nat × CellCheck)) : State :=
  if !(s.region r).scrubbing then s
  else
    let s := (found.foldl (fun s f => s.scrubCell r f) s).cellsWritten (s.regionCells r)
    let x := s.region r
    let s := s.setRegion r { x with scrubbing := false, enc := x.encreq, heldOps := [] }
    x.heldOps.foldl (fun s o => s.queueOp o.1 o.2) s

def execRegionScrubEnd (r : Checked PartId (List (BitVec 19 × CellCheck))) (s : State) :
    Host.Outcome State Fault Refusal :=
  .next (s.endRegionScrub r.val.toNat (r.chk.map fun f => (f.1.toNat, f.2)))

/-- Some cell holds an item: a queue's, a staged one or one of a parked commit. -/
def State.anyItem (s : State) : Bool :=
  s.qe.queues.any (fun e => !e.2.items.isEmpty || e.2.parked.isSome) ||
    s.disps.any fun e =>
      (match e.2.running with | some x => !x.staged.isEmpty | none => false) ||
      e.2.saved.any fun p => !p.2.staged.isEmpty

/-- A write of POOL_STAT.BOOT (R216): clearing it is ignored while a cell holds an item. -/
def State.writeBoot (s : State) (v : Bool) : State :=
  if !v && s.anyItem then s else { s with qe := { s.qe with boot := v } }

def execBoot (v : Bool) (s : State) : Host.Outcome State Fault Refusal := .next (s.writeBoot v)

/-- A level on FCI[n] (R228). -/
def execFciChange (n : SegId) (v : Bool) (s : State) : Host.Outcome State Fault Refusal :=
  .next { s with qe := { s.qe with fci := bvSet s.qe.fci n.toNat 1 (b2n v) } }

/-! ## Frames received (15 R444 to R446) -/

/-- A matched frame: a scrub of the queue's region holds it (R215, R231). -/
def State.deliverFrame (s : State) (dflt : Bool) (i port : Nat) (r : Rule) (f : RxFrame) : State :=
  if s.regionHolds r.queue then s.holdOp r.queue (.frame dflt i port r f) else s.frameNow dflt i port r f

/-- The ingress timestamp of a frame on logical port n, referred to the MDI (15 R445): the fixed latency of the mode and RX_LAT_ADJ
are taken from what the port's clock gives (DESIGN CHOICE, log entry 115: the sign of the adjustment). -/
def State.ingressTs (s : State) (n : Nat) (ts : DWord) : DWord :=
  ts - BitVec.ofNat 64 (Config.rxLatency (s.dget (0x2100 + n / 4) 1)) - (BitVec.ofNat 32 (s.dget (0x2110 + n) 3)).signExtend 64

/-- An 802.3x pause or a PFC frame: an untagged MAC control frame of opcode 0x0001 or 0x0101 (15 R444; PRESUMED, log entry 148:
the opcodes are IEEE 802.3's). -/
def isPause (l : List Byte) : Bool := beAt l 12 2 = 0x8808 && (beAt l 14 2 = 0x0001 || beAt l 14 2 = 0x0101)

def execFrameReceive (port : PortId) (f : RxFrame) (s : State) : Host.Outcome State Fault Refusal :=
  let n := port.toNat
  let drop := s.portDrop n rxDropsSub
  let f := { f with ts := s.ingressTs n f.ts }
  .next (if (s.portRate n).isNone || s.node = .fault then s
    else if !f.fcsOk || f.bytes.length < 60 || 9212 < f.bytes.length || s.testing 4 (n / 4) then drop
    else
      let h := classifyFrame f.bytes
      if isPause f.bytes then drop
      else if h.etype = 0x88F7 then
        if bitOf (s.dget 0x2140 4) n then s.l2Event (16 + n / 4) else drop
      else
        match s.qe.rules.find? fun e => match e.2 with | some r => r.matches n h | none => false with
        | some (i, some r) => s.deliverFrame false i n r f
        | _ =>
          match tabGet none s.qe.defRule n with
          | some r => s.deliverFrame true n n r f
          | none => drop)

end Sys2Proof.Machine
end

