-- ==== Sys2Proof/Machine/Admission.lean ====
section
/-! DEFINITION. The open-stream request and the admission test, and the close, forced close and resume requests
(02 R50 to R78, 05 R197, 06 R217 to R219, R233, 07 R251, 15 R434 to R437, R450). Comparisons are exact: sums of
fractions are kept as a numerator and a denominator. -/

namespace Sys2Proof.Machine
open Sys2Proof

/-! ## Fractions -/

/-- A non-negative fraction: numerator and positive denominator. -/
abbrev Frac := Nat × Nat

def Frac.add (x y : Frac) : Frac :=
  let n := x.1 * y.2 + y.1 * x.2
  let d := x.2 * y.2
  let g := max (Nat.gcd n d) 1
  (n / g, d / g)

def fracSum (l : List Frac) : Frac := l.foldl Frac.add (0, 1)

/-! ## The request (Table 2-1, 15 Table 15-4) -/

/-- An admission request entry by field. -/
structure Req where
  op : Nat
  flags : Nat
  tag : Nat
  prick : Nat
  spindle : Nat
  eport : Nat
  period : Nat
  phase : Nat
  jitter : Nat
  deadline : Nat
  offset : Nat
  inq : Nat
  outq : Nat
  odepth : Nat
  ctx : Nat
  /-- bytes 33 to 35 and 40 to 63, reserved in every OP -/
  rsvd : Nat
deriving DecidableEq, Repr

/-- Bytes a to a + n − 1 of an entry. -/
def recByte (e : Rec64) (a n : Nat) : Nat := fld e.toNat (8 * a) (8 * n)

def reqOf (e : Rec64) : Req :=
  { op := recByte e 0 1, flags := recByte e 1 1, tag := recByte e 2 2, prick := recByte e 4 2, spindle := recByte e 6 1,
    eport := recByte e 7 1, period := recByte e 8 4, phase := recByte e 12 4, jitter := recByte e 16 4,
    deadline := recByte e 20 4, offset := recByte e 24 4, inq := recByte e 28 2, outq := recByte e 30 2,
    odepth := recByte e 32 1, ctx := recByte e 36 4, rsvd := recByte e 33 3 + recByte e 40 24 }

def Req.sporadic (r : Req) : Bool := bitOf r.flags 0
def Req.late (r : Req) : Bool := bitOf r.flags 1
def Req.timed (r : Req) : Bool := bitOf r.flags 2
def Req.any (r : Req) : Bool := bitOf r.flags 3

/-! ## Codes (Table 2-6) -/

def cAccepted : Nat := 0x00
def cSpindleTime : Nat := 0x01
def cPreemptDepth : Nat := 0x02
def cHbmSlots : Nat := 0x03
def cHank : Nat := 0x04
def cQueueCredits : Nat := 0x05
def cShuttleTime : Nat := 0x06
def cEgressPortTime : Nat := 0x07
def cContext : Nat := 0x08
def cParameter : Nat := 0x09
def cPricking : Nat := 0x0A
def cMode : Nat := 0x0B
def cHoldoff : Nat := 0x0C
def cQueue : Nat := 0x0D
def cDispatchRate : Nat := 0x0E

/-! ## Test 1: PARAMETER (R51, R436) -/

/-- Logical spindles of a partition's mask that are in service. -/
def State.inService (s : State) (p : Nat) : List Nat :=
  (List.range 128).filter fun k => s.partOf k = some p && !s.oos k

/-- The lowest field of Table 2-1 that the request breaks; 0 for a reserved byte that is not zero. Which field is reported when
several bounds are broken no rule says (DESIGN CHOICE, log entry 139). -/
def State.paramField (s : State) (p : Nat) (r : Req) : Option Nat :=
  let x := s.part p
  if r.rsvd ≠ 0 || r.flags / 16 ≠ 0 || r.ctx ≠ 0 then some 0
  else if r.sporadic && (r.timed || x.mode = 2) then some 2
  else if r.period < 2000 || 1000000000 < r.period then some 3
  else if !r.sporadic && r.period ≤ r.phase then some 4
  else if !r.sporadic && r.period < 2 * r.jitter then some 5
  else if r.deadline < 1000 || r.period < r.deadline then some 6
  else if r.odepth < 1 || 64 < r.odepth then some 9
  else if r.timed && (31 < r.eport || !bitOf x.egr.toNat r.eport || (s.portRate r.eport).isNone) then some 10
  else if r.timed && 4000000000 < r.offset then some 11
  else if !r.any && (127 < r.spindle || s.partOf r.spindle ≠ some p || s.oos r.spindle) then some 13
  else if r.any && (s.inService p).isEmpty then some 13
  else none

/-! ## Tests 2 to 9 -/

/-- Test 3: the hold-off detail (R91). -/
def State.holdoff (s : State) : Option Nat :=
  if s.rst.warn ≠ 0 then some 0xFFFFFFFF
  else match s.rst.holdoff with
    | some t => if s.now < t then some (ceilDiv (t - s.now) 1000) else none
    | none => none

/-- The entry point lies in the pricking's code region (R55, R270). -/
def entryInRegion (x : Rec64) : Bool :=
  let a := prEntry x
  match prCodeReg x with
  | 0 => decide (a ≤ 0xFFFC)
  | 1 => decide (0x010000000000 ≤ a) && decide (a < 0x010010000000)
  | 2 => decide (a < 0x0017FC000000)
  | _ => false

/-- Test 4: the first item of R55 that holds; which is the detail when several hold no rule says (DESIGN CHOICE, log entry 139). -/
def State.prickItem (s : State) (p : Nat) (r : Req) : Option Nat :=
  let x := s.prick r.prick
  if !prValid x || prPart x ≠ p then some 1
  else if !entryInRegion x then some 2
  else if (s.part p).mode = 4 && !prCt x then some 3
  else if (s.part p).mode = 5 && !prTr x then some 4
  else none

/-- Contexts that are not FREE, in ascending order. -/
def State.liveCtxs (s : State) : List (Nat × Rec64) :=
  s.store.filter fun e => decide (e.1 < 262144 - s.prickCount) && ctxState e.2 ≠ stFree

def State.ctxUsed (s : State) (p : Nat) : Nat := (s.liveCtxs.filter fun e => ctxPart e.2 = p).length

/-- The j-th index that is not in an ascending list. -/
def nthFree (used : List Nat) (j : Nat) : Nat := used.foldl (fun j u => if u ≤ j then j + 1 else j) j

/-- Contexts there are, less those in use. -/
def State.freeCtxCount (s : State) : Nat := 262144 - s.prickCount - s.liveCtxs.length

/-- Test 5. -/
def State.hasContext (s : State) (p : Nat) : Bool := decide (s.ctxUsed p < (s.part p).ctxq) && decide (0 < s.freeCtxCount)

/-- Test 6: the queue that breaks the queue condition (R72, R218), the input queue when both do (DESIGN CHOICE, log entry 139). The
output queue of a timed stream must be in Flush mode (15 R448): one that is not fails here (DESIGN CHOICE, log entry 140). -/
def State.queueFail (s : State) (p : Nat) (r : Req) : Option Nat :=
  let x := s.queue r.inq
  let y := s.queue r.outq
  if x.state ≠ .active || x.owner.toNat ≠ p || x.inb.isSome then some r.inq
  else if r.inq = r.outq then some r.outq
  else if y.state ≠ .active || y.owner.toNat ≠ p || y.outb.isSome || y.prod.toNat ≠ pcStream || (r.timed && !y.flush) then
    some r.outq
  else none

/-- Q of a request (R72). -/
def reqCredits (x : Rec64) (odepth : Nat) : Nat := prInCred x + prOutCred x * (odepth + 1)

/-- Reservations of the partition's streams. -/
def State.reserved (s : State) (p : Nat) : Nat :=
  (s.liveCtxs.filter fun e => ctxPart e.2 = p).foldl
    (fun n e => n + (s.aux e.1).inCred + (s.aux e.1).outCred + (s.aux e.1).park) 0

/-- Test 7: the bobbins short (R72, R219). -/
def State.creditsShort (s : State) (p : Nat) (r : Req) : Option Nat :=
  let need := s.reserved p + reqCredits (s.prick r.prick) r.odepth + s.regionBase p
  let quota := (s.region p).quota
  if quota < need then some (need - quota) else none

/-- Test 8: the lowest hank of the mask that the partition does not own (R71). -/
def State.hankFail (s : State) (p : Nat) (mask : Nat) : Option Nat :=
  (List.range 64).find? fun n => bitOf mask n && (s.hank n).owner.toNat ≠ p

/-- Timed streams of a port that are not FREE, with their contexts. -/
def State.timedOn (s : State) (port : Nat) : List (Nat × Rec64) :=
  s.liveCtxs.filter fun e => ctxTimed e.2 && ctxEport e.2 = port

/-- The pair condition of R75: launch starts a, occupancies w, periods t. -/
def pairOkEgress (ai wi ti aj wj tj : Nat) : Bool :=
  let g := Nat.gcd ti tj
  let d := (aj + (g - ai % g)) % g
  decide (wi ≤ d) && decide (d + wj ≤ g)

/-- Test 9: the conflicting context, or 0x3_FFFF for the offset and self tests (R75, R450). Of several conflicting contexts the
lowest index is reported, and 0x3_FFFF before any of them (DESIGN CHOICE: R75 does not say which; log entry 139). A port under a
live test binds no stream (17 R508), which is answered as 0x3_FFFF (DESIGN CHOICE, log entry 155). -/
def State.egressFail (s : State) (r : Req) : Option Nat :=
  if !r.timed then none
  else
    let w := prEgressNs (s.prick r.prick)
    let occ := r.jitter + w + 8
    if s.testing 4 (r.eport / 4) || r.offset < r.deadline + 1500 || r.period < occ || 2048 ≤ (s.timedOn r.eport).length then some 0x3FFFF
    else
      ((s.timedOn r.eport).find? fun e =>
        !pairOkEgress ((s.aux e.1).phase + ctxOffset e.2) (ctxJitter e.2 + (s.aux e.1).egressNs + 8) (ctxPeriod e.2)
          (r.phase + r.offset) occ r.period).map Prod.fst

/-! ## Reservations (05 R197) -/

/-- The octets that enabled record i reserves for spindle k of partition p on pseudo-channel pc and that have taken effect
there: a record counts from its stack's frame boundary on (05 R198). -/
def State.recOctets (s : State) (i p k pc : Nat) : Nat :=
  let g := s.dget (0x3200 + i)
  if g 7 = 1 && g 1 = p && g 2 = k && decide (g 3 ≤ pc) && decide (pc ≤ g 4) then
    ((List.range 128).filter fun j => bitOf (g 5 + g 6 * 2 ^ 64) j && s.octetActive k pc j).length
  else 0

/-- The numbers of the enabled records. -/
def State.enabledRecs (s : State) : List Nat :=
  s.dict.filterMap fun e =>
    if 0x3200 ≤ e.1 / 256 && e.1 / 256 ≤ 0x32FE && e.1 % 256 = 7 && e.2 = 1 then some (e.1 / 256 - 0x3200) else none

/-- Octets per frame reserved for spindle k of partition p on pseudo-channel pc. -/
def State.octetsOf (s : State) (p k pc : Nat) : Nat :=
  s.enabledRecs.foldl (fun n i => n + s.recOctets i p k pc) 0

/-- Test 10: a pseudo-channel short of Sh slots (R70), or without an octet in M5 (R258): the lowest of several (DESIGN CHOICE, log
entry 139). -/
def State.hbmFail (s : State) (p k : Nat) (pr : Rec64) (m5 : Bool) : Option Nat :=
  (List.range 128).find? fun pc =>
    let slots := 8 * s.octetsOf p k pc
    (bitOf (prPcMask pr) pc && decide (slots < prSh pr)) || (m5 && slots = 0)

/-! ## The spindle tests (R65 to R69, R73) -/

/-- What a stream brings to Σ: T, D, e's cycles Be, and s. -/
structure Load where
  period : Nat
  deadline : Nat
  be : Nat
  sh : Nat
deriving DecidableEq, Repr

/-- The divisor of ta = 5/den ns at a step (R66). -/
def stepDen (step : Nat) : Nat :=
  match step with
  | 0 => 8
  | 1 => 6
  | 2 => 4
  | _ => 2

/-- Cycles (CORE) to ns at a step, rounded up. -/
def cyclesNs (step n : Nat) : Nat := ceilDiv (n * 5) (stepDen step)

def kJob : Nat := 768
def jitterJ : Nat := 600
def snp : Nat := 128
/-- Sswap (Table 2-5). -/
def State.sswap (s : State) : Nat := if s.dget 0x2010 8 = 1 then 2400 else 0

/-- The admission step a (R66). -/
def State.admitStep (s : State) : Nat :=
  let sched := match s.clock.nextStep with | some x => x.1.toNat | none => 0
  max (max s.clock.step.toNat sched) (s.dget 0x2010 4)

def Load.e (step : Nat) (x : Load) : Nat := cyclesNs step (x.be + kJob)
def Load.dv (x : Load) : Nat := x.deadline - jitterJ
/-- b of the spindle. -/
def State.blocking (s : State) (step : Nat) : Nat := cyclesNs step (snp + s.sswap)

/-- dbf with charge c (R67). -/
def dbf (x : Load) (c t : Nat) : Nat := if t < x.dv then 0 else ((t - x.dv) / x.period + 1) * c

/-- The checkpoints of a set up to bound m: k × T + D′. -/
def checkpoints (l : List Load) (m : Nat) : List Nat :=
  l.flatMap fun x => if m < x.dv then [] else (List.range ((m - x.dv) / x.period + 1)).map fun k => k * x.period + x.dv

def utilOf (step : Nat) (l : List Load) : Frac := fracSum (l.map fun x => (x.e step, max x.period 1))

/-- ceil((Σ (T − D′) c/T + b) / (1 − U)) for U = n/d below 1. -/
def busyBound (l : List Load) (c : Load → Nat) (b : Nat) (u : Frac) : Nat :=
  let v := fracSum (l.map fun x => ((x.period - x.dv) * c x, max x.period 1))
  ceilDiv ((v.1 + b * v.2) * u.2) (v.2 * (u.2 - u.1))

def maxDv (l : List Load) : Nat := l.foldl (fun m x => max m x.dv) 0

/-- Test 13 (R67): none, or whether condition 1 failed. -/
def State.spindleTime (s : State) (step : Nat) (l : List Load) : Option Bool :=
  let u := utilOf step l
  let b := s.blocking step
  if s.dget 0x2010 5 * u.2 < u.1 * 1000 then some true
  else
    let m := max (maxDv l) (busyBound l (fun x => x.e step) b u)
    if (checkpoints l m).all fun t => decide (l.foldl (fun n x => n + dbf x (x.e step) t) 0 + b ≤ t) then none else some false

/-- Test 11 (R68). -/
def depthOk (l : List Load) : Bool := decide ((l.map fun x => x.deadline).eraseDups.length ≤ 31)

/-- Test 12 (R69). -/
def rateOk (l : List Load) : Bool :=
  let r := fracSum (l.map fun x => (1000000000, max x.period 1))
  decide (r.1 ≤ 4000000 * r.2)

/-- Test 14 (R73). -/
def shuttleOk (l : List Load) : Bool :=
  let l := l.filter fun x => x.sh ≠ 0
  let u := fracSum (l.map fun x => (x.sh, max x.period 1))
  let b := l.foldl (fun m x => max m x.sh) 0
  if u.2 < u.1 then false
  else
    let m := if u.1 = u.2 then (l.foldl (fun h x => Nat.lcm h x.period) 1) + maxDv l
      else max (maxDv l) (busyBound l (fun x => x.sh) b u)
    (checkpoints l m).all fun t => decide (l.foldl (fun n x => n + dbf x x.sh t) 0 + b ≤ t)

/-- The load of a context. -/
def State.loadOf (s : State) (c : Nat) (e : Rec64) : Load :=
  { period := ctxPeriod e, deadline := ctxDeadline e, be := (s.aux c).be, sh := (s.aux c).shuttleNs }

/-- Σ of spindle k without a new stream: streams in ADMITTING, OPEN, DRAINING or SUSPENDED. -/
def State.sigma (s : State) (k : Nat) : List Load :=
  (s.liveCtxs.filter fun e => ctxSpindle e.2 = k && s.ctxCounts e.2).map fun e => s.loadOf e.1 e.2

/-- Σ less the streams bound to pattern card entries (R97, R253). -/
def State.sigmaUnbound (s : State) (k : Nat) : List Load :=
  (s.liveCtxs.filter fun e => ctxSpindle e.2 = k && s.ctxCounts e.2 && (s.aux e.1).cardEntry.isNone).map
    fun e => s.loadOf e.1 e.2

/-! ## The binding test of M2 (07 R251) -/

/-- The card the test uses: the waiting one, or the one in force. -/
def Cards.test (x : Cards) : Option Card := match x.waiting with | some c => some c | none => x.card
/-- The instant from which that card is in force. -/
def Cards.testFrom (x : Cards) : Nat := x.at_

/-- Entries of spindle k's card that a stream is bound to. -/
def State.boundEntries (s : State) (k : Nat) : List Nat :=
  (s.liveCtxs.filter fun e => ctxSpindle e.2 = k).filterMap fun e => (s.aux e.1).cardEntry.map Prod.fst

/-- The furthest condition entry i reaches: 1 none, 2 release, 3 deadline, 4 all hold. -/
def entryReach (x : CardEntry) (r : Req) : Nat :=
  if x.prick ≠ r.prick then 1
  else if x.start < r.phase + r.jitter + 600 then 2
  else if r.phase + r.deadline < x.start + x.len then 3
  else 4

/-- The bound entry and its START, or the condition of the detail. -/
def State.bindTest (s : State) (k : Nat) (r : Req) : Sum (Nat × Nat) Nat :=
  match (s.card k).test with
  | none => .inr 1
  | some c =>
    if c.fc ≠ r.period then .inr 1
    else
      let used := s.boundEntries k
      let l := (c.entries.zipIdx.filter fun x => !used.contains x.2).map fun x => (x.2, x.1.start, entryReach x.1 r)
      match l.find? fun x => x.2.2 = 4 with
      | some x => .inl (x.1, x.2.1)
      | none => .inr (l.foldl (fun m x => max m x.2.2) 1)

/-! ## Candidates (R76, R78) -/

/-- What a candidate answers: it passes, with its card binding; or it fails at a test of Table 2-6 with a code and detail. -/
inductive Cand where
  | pass (bind : Option (Nat × Nat))
  | fail (order code detail : Nat)
deriving DecidableEq, Repr

/-- Tests 10 to 14 on candidate k. -/
def State.tryCandidate (s : State) (p k : Nat) (r : Req) : Cand :=
  let pr := s.prick r.prick
  let mode := (s.part p).mode.toNat
  let new : Load := { period := r.period, deadline := r.deadline, be := prBe pr, sh := prShuttleNs pr }
  let l := new :: s.sigma k
  if mode = 3 then .pass none
  else
    match s.hbmFail p k pr (mode = 5) with
    | some pc => .fail 10 cHbmSlots (k + pc * 2 ^ 8)
    | none =>
      let last (b : Option (Nat × Nat)) : Cand := if shuttleOk l then .pass b else .fail 14 cShuttleTime k
      if mode = 2 then
        match s.bindTest k r with
        | .inl b => last (some b)
        | .inr c => .fail 13 cSpindleTime (k + c * 2 ^ 8)
      else if !depthOk l then .fail 11 cPreemptDepth k
      else if !rateOk l then .fail 12 cDispatchRate k
      else match s.spindleTime s.admitStep l with
        | some c1 => .fail 13 cSpindleTime (k + b2n c1 * 2 ^ 7)
        | none => last none

/-- Placement weight: U after the addition (a fraction), or in M3 the number of streams that are not FREE. U counts every charge on
the spindle, in M2 too (DESIGN CHOICE, log entry 161). -/
def State.candWeight (s : State) (p k : Nat) (r : Req) : Frac :=
  if (s.part p).mode = 3 then ((s.liveCtxs.filter fun e => ctxSpindle e.2 = k).length, 1)
  else
    let pr := s.prick r.prick
    utilOf s.admitStep ({ period := r.period, deadline := r.deadline, be := prBe pr, sh := prShuttleNs pr } :: s.sigma k)

def Frac.lt (x y : Frac) : Bool := decide (x.1 * y.2 < y.1 * x.2)

/-- The best of the passing candidates: lowest weight, ties to the lowest spindle; candidates come in ascending order. -/
def bestCand (l : List (Nat × Frac × Option (Nat × Nat))) : Option (Nat × Frac × Option (Nat × Nat)) :=
  l.foldl (fun b x => match b with
    | none => some x
    | some y => if Frac.lt x.2.1 y.2.1 then some x else some y) none

/-- The failure reported: the highest-numbered test reached, ties to the lowest spindle. -/
def worstFail (l : List (Nat × Nat × Nat)) : Nat × Nat × Nat :=
  l.foldl (fun b x => if b.1 < x.1 then x else b) (0, cParameter, 13)

/-! ## Hank power (05 R183, R184, 02 R71) -/

def hoopOfHank (n : Nat) : Nat := n / 4

def powerCode : HankPower → Nat
  | .on => 0
  | .ret => 1
  | .off => 2
  | .moving _ _ => 3

def powerOf (c : BitVec 2) : HankPower :=
  match c.toNat with
  | 0 => .on
  | 1 => .ret
  | _ => .off

/-- PEND: a written change has not yet taken full effect (R180 to R182). The scrub that ends a transition out of off is
no change of HANK_OWN. -/
def Hank.pendBit (h : Hank) : Bool := h.pend.isSome || (h.scrubbing && powerCode h.power ≠ 3) || h.heldScrub

/-- Begin the transition to state r, unless the hank is in it already (R183). -/
def Hank.startPower (h : Hank) (r : BitVec 2) : Hank :=
  match h.power with
  | .moving _ _ => { h with reqNext := some r }
  | p => if powerCode p = r.toNat then { h with reqNext := none }
    else { h with power := .moving (BitVec.ofNat 2 (powerCode p)) r, reqNext := none }

/-- PEND has returned to 0: a deferred power request starts (R184, R209). -/
def Hank.pendDone (h : Hank) : Hank :=
  match h.power, h.reqNext with
  | .moving _ _, _ => h
  | _, some r => h.startPower r
  | _, none => h

/-- Hank n is in the mask of a stream that is not FREE: it is held on (R71). -/
def State.hankHeldOn (s : State) (n : Nat) : Bool :=
  s.liveCtxs.any fun e => bitOf (prHankMask (s.prick (ctxPrick e.2))) n

/-- A write of HANK_PWR.REQ (R183, R184): 0b11 is reserved, and a hank that a stream holds on stays on (R71). -/
def State.writeHankPwr (s : State) (n : Nat) (r : BitVec 2) : State :=
  let h := s.hank n
  if r = 3 || (r ≠ 0 && s.hankHeldOn n) then s
  else
    let h := { h with req := r }
    let moving := powerCode h.power = 3
    if moving || (h.pendBit && !(h.heldScrub && h.power ≠ .on)) then s.setHank n { h with reqNext := some r }
    else s.setHank n (h.startPower r)

/-- The hanks of a mask that are not on, or are to leave on, are brought on (R71). -/
def State.holdHanks (s : State) (mask : Nat) : State :=
  ((List.range 64).filter fun n => bitOf mask n && ((s.hank n).power ≠ .on || (s.hank n).req ≠ 0)).foldl
    (fun s n => s.writeHankPwr n 0) s

/-! ## Acceptance (R219, R233) -/

/-- The new context (Table 6-12). free: CHKPOLY and CHKEN, which no rule gives the request. CHKVAL is 0 (DESIGN CHOICE: R233
states no value at admission). -/
def newContext (s : State) (p k : Nat) (r : Req) (free : DWord) : Rec64 :=
  let st := if (s.part p).mode = 3 then stBackground else stOpen
  let next := if r.sporadic then 0
    else r.phase + ceilDiv (s.now - r.phase) (max r.period 1) * r.period
  let e : Rec64 := 0
  let e := rset (rset (rset (rset (rset e 0 0 3 st) 0 3 1 (b2n r.sporadic)) 0 4 1 (b2n r.late)) 0 5 4 p) 0 9 7 k
  let e := rset (rset (rset e 0 16 16 r.prick) 0 32 6 (r.odepth - 1)) 0 45 3 (bvFld free 0 3)
  let e := rset (rset (rset e 1 0 30 r.period) 1 32 30 r.deadline) 2 0 64 next
  let e := rset (rset (rset e 3 0 16 r.inq) 3 16 16 r.outq) 3 32 29 (if r.sporadic then 0 else r.jitter)
  rset (rset (rset e 4 0 32 (if r.timed then r.offset else 0)) 5 56 5 (if r.timed then r.eport else 0)) 5 61 1 (b2n r.timed)

/-- Accept request r of partition p on spindle k: the answer's detail, and the state. -/
def State.accept (s : State) (p k : Nat) (r : Req) (bind : Option (Nat × Nat)) : Nat × State :=
  let pr := s.prick r.prick
  let used := s.liveCtxs.map Prod.fst
  let f := s.fresh
  let c := nthFree used (Config.contextChoice s.clock.free % max s.freeCtxCount 1)
  let bg := (s.part p).mode = 3
  let e := newContext s p k r f.1
  let outc := prOutCred pr * r.odepth
  let s := f.2.setEntry c e
  let s := s.setAux c
    { phase := if r.sporadic then 0 else r.phase
      inCred := prInCred pr
      outCred := outc
      park := prOutCred pr
      be := prBe pr
      egressNs := prEgressNs pr
      shuttleNs := prShuttleNs pr
      cardEntry := bind
      cardFrom := bind.map fun _ => (s.card k).testFrom }
  let x := s.queue r.inq
  let s := s.setQueue r.inq { x with inb := some c, clim := x.clim + prInCred pr, contDrop := false }
  let y := s.queue r.outq
  let s := s.setQueue r.outq { y with outb := some c, clim := y.clim + outc }
  (c + k * 2 ^ 18 + b2n bg * 2 ^ 31, (s.holdHanks (prHankMask pr)).wakeSpindle k)

/-- The open-stream request of partition p: code, detail, and the state (R76). -/
def State.openReq (s : State) (p : Nat) (r : Req) : Nat × Nat × State :=
  let x := s.part p
  let mode := x.mode.toNat
  match s.paramField p r with
  | some f => (cParameter, f, s)
  | none =>
  if mode = 0 || 6 ≤ mode || x.pend || x.resetting then (cMode, mode, s)
  else match s.holdoff with
  | some d => (cHoldoff, d, s)
  | none =>
  match s.prickItem p r with
  | some i => (cPricking, i, s)
  | none =>
  if !s.hasContext p then (cContext, x.ctxq, s)
  else match s.queueFail p r with
  | some q => (cQueue, q, s)
  | none =>
  match s.creditsShort p r with
  | some n => (cQueueCredits, n, s)
  | none =>
  match s.hankFail p (prHankMask (s.prick r.prick)) with
  | some h => (cHank, h, s)
  | none =>
  match s.egressFail r with
  | some c => (cEgressPortTime, c, s)
  | none =>
    let cands := if r.any then s.inService p else [r.spindle]
    let res := cands.map fun k => (k, s.tryCandidate p k r)
    let pass := res.filterMap fun x => match x.2 with
      | .pass b => some (x.1, s.candWeight p x.1 r, b)
      | .fail _ _ _ => none
    match bestCand pass with
    | some b =>
      let a := s.accept p b.1 r b.2.2
      (cAccepted, a.1, a.2)
    | none =>
      let w := worstFail (res.filterMap fun x => match x.2 with
        | .pass _ => none
        | .fail o c d => some (o, c, d))
      (w.2.1, w.2.2, s)

/-! ## Close, forced close, resume (R58 to R60, R436) -/

/-- The close of a live stream at the present instant. -/
def State.closeCtx (s : State) (c : Nat) : State :=
  let e := s.entry c
  if ctxState e = stDraining then s
  else
    let t := s.now
    let s := s.setEntry c (rset e 0 0 3 stDraining)
    let s := s.setAux c { s.aux c with closeAt := some t }
    ((s.dropHeld c fun h => h.instant < t && !h.blocked).dropReleases c t).freeIfDone c

/-- A resume (R60). A stream of a partition in M3 is BACKGROUND again (DEDUCED: R78 makes every stream of M3 one). -/
def State.resumeCtx (s : State) (c : Nat) : State :=
  let e := s.entry c
  s.setEntry c (rset (rset e 0 0 3 (if (s.part (ctxPart e)).mode = 3 then stBackground else stOpen)) 0 48 16 0)

/-- CLOSE, FORCE_CLOSE and RESUME: code, detail, state. While a reset of the partition runs they are refused with MODE (17
R493). -/
def State.ctxReq (s : State) (p : Nat) (r : Req) : Nat × Nat × State :=
  let c := r.ctx
  let e := s.entry c
  let st := ctxState e
  let live := st = stOpen || st = stSuspended || st = stBackground || st = stDraining
  if r.rsvd ≠ 0 then (cParameter, 0, s)
  else if (s.part p).resetting then (cMode, (s.part p).mode.toNat, s)
  else if 262144 ≤ c || 262144 - s.prickCount ≤ c || st = stFree || ctxPart e ≠ p then (cParameter, 14, s)
  else match r.op with
    | 2 => if live then (cAccepted, c, s.closeCtx c) else (cParameter, 14, s)
    | 3 => if live then (cAccepted, c, s.forceCloseStream c false) else (cParameter, 14, s)
    | _ => if st = stSuspended then (cAccepted, c, s.resumeCtx c) else (cParameter, 14, s)

/-- Any request entry (R436): an unknown OP is PARAMETER with field 0. -/
def State.anyReq (s : State) (p : Nat) (e : Rec64) : Nat × Nat × State :=
  let r := reqOf e
  if r.op = 1 then s.openReq p r
  else if r.op = 2 || r.op = 3 || r.op = 4 then s.ctxReq p r
  else (cParameter, 0, s)

/-! ## The admission ring (15 R434, R435) -/

/-- The governor reads the next entry of ring r (0 ARQ, 2 CSQ) of partition p: enabled, not empty, not stopped by a failed
read, room for the answer in ring r + 1, and no FAULT (R434, R435, 17 R504). -/
def State.ringReady (s : State) (p r : Nat) : Bool :=
  let g := s.ring p r
  g.en && g.ci ≠ g.pi && !g.stopped && decide (0 < (s.ring p (r + 1)).room) && s.node ≠ .fault &&
    decide (0 < s.distaffRunning)

/-- The entry at CI is read in the ring's function (15 R430), and CI advances past it; an entry of the response ring is promised to
the answer (R435). -/
def State.ringTake (s : State) (p r : Nat) : State :=
  let g := s.ring p r
  ((s.setRing p r { g with ci := (g.ci + 1) % 2 ^ 17 }).send (.hostRead p (s.hostAddr p (g.base + 64 * (g.ci % g.size))) 64)).promise p (r + 1)

/-- Read one entry of partition p's admission ring, perform it and answer. -/
def State.arqEntry (s : State) (p : Nat) (e : Rec64) : State :=
  let x := (s.ringTake p 0).anyReq p e
  (x.2.2.redeem p 1).anqAnswer p x.1 (recByte e 2 2) x.2.1

/-- OPEN takes an entry whose OP is 1, or no OP of Table 15-4. -/
def execOpenStream (p : PartId) (entry : Rec64) (s : State) : Host.Outcome State Fault Refusal :=
  let op := recByte entry 0 1
  .next (if s.ringReady p.toNat 0 && (op < 2 || 4 < op) then s.arqEntry p.toNat entry else s)

def execCloseStream (p : PartId) (entry : Rec64) (s : State) : Host.Outcome State Fault Refusal :=
  .next (if s.ringReady p.toNat 0 && recByte entry 0 1 = 2 then s.arqEntry p.toNat entry else s)

def execForceClose (p : PartId) (entry : Rec64) (s : State) : Host.Outcome State Fault Refusal :=
  .next (if s.ringReady p.toNat 0 && recByte entry 0 1 = 3 then s.arqEntry p.toNat entry else s)

def execResumeStream (p : PartId) (entry : Rec64) (s : State) : Host.Outcome State Fault Refusal :=
  .next (if s.ringReady p.toNat 0 && recByte entry 0 1 = 4 then s.arqEntry p.toNat entry else s)

end Sys2Proof.Machine
end

