-- ==== Sys2Proof/Machine/Intr.lean ====
section
/-! DEFINITION. Selection at both interrupt levels (12 R367, R368, R373, R378) and interrupt entry (R369, R370). -/

namespace Sys2Proof.Machine
open Sys2Proof

/-- A guaranteed skein is running or ready on the spindle (R367). -/
def Disp.guaranteed (d : Disp) : Bool :=
  (match d.running with | some x => !x.bg | none => false) || d.ready.any fun x => !x.bg

/-- Level 1 source n is pending and no mask holds it back, IE and the in-service record apart (R367). -/
def State.l1Unmasked (s : State) (k n : Nat) : Bool :=
  let x := s.l1 (s.posOf k)
  let g := n / 8
  x.pend.getLsbD n && !x.active.getLsbD n && x.en.getLsbD n && (s.cpu k).vbase.getLsbD g &&
    tabGet 0 x.remain g = 0 && !x.gdis &&
    !(x.defer.getLsbD n && s.modeOf k ≠ some 3 && (s.disp k).guaranteed)

/-- The source level 1 would deliver to spindle k, IE apart: the lowest unmasked one (R368). -/
def State.l1Pick (s : State) (k : Nat) : Option Nat := (List.range 64).find? fun n => s.l1Unmasked k n

/-- Level 2 source n is eligible for distaff core c (R378). -/
def State.l2Eligible (s : State) (c n : Nat) : Bool :=
  let r := tabGet 0 s.l2.src n
  tabGet false s.l2.pend n && !tabGet false s.l2.active n && bitOf r.toNat 6 && fld r.toNat 4 2 = c &&
    decide (tabGet 0 s.l2.thresh c < fld r.toNat 0 4) && tabGet 0 s.l2.remain (n / 64) = 0 && !s.l2.gdis

def l2Prio (s : State) (n : Nat) : Nat := fld (tabGet (0 : BitVec 7) s.l2.src n).toNat 0 4

/-- The eligible source of highest priority, with ties to the lowest number (R378). -/
def State.l2Select (s : State) (c : Nat) : Option Nat :=
  (s.l2.pend.filterMap fun e => if s.l2Eligible c e.1 then some e.1 else none).foldl
    (fun best n => match best with
      | none => some n
      | some m => if l2Prio s m < l2Prio s n then some n else some m) none

/-- The source selected for core c within the last 6 cycles, which a mask does not withdraw (R378), with its priority; its group's
hold-off, which is no mask, does. -/
def State.l2Held (s : State) (c : Nat) : Option (Nat × Nat) :=
  match tabGet none s.l2.sel c with
  | some (n, p, u) => if s.clock.u ≤ u + 6 && tabGet false s.l2.pend n && !tabGet false s.l2.active n && tabGet 0 s.l2.remain (n / 64) = 0 then some (n, p) else none
  | none => none

/-- The source for which core c's request line is high and which a CLAIM returns (R378, R379): a held one, unless an
eligible one goes before it. -/
def State.l2Pick (s : State) (c : Nat) : Option Nat :=
  match s.l2Held c, s.l2Select c with
  | none, m => m
  | some (n, _), none => some n
  | some (n, p), some m => some (if p < l2Prio s m || (p = l2Prio s m && m < n) then m else n)

/-- The selection of each core as a CORE edge records it: a source that stays selected keeps the cycle its selection began. -/
def State.l2Record (s : State) : Tab (Option (Nat × Nat × Nat)) :=
  (List.range 4).foldl (fun t c => tabSet none t c (match s.l2Pick c, tabGet none s.l2.sel c with
    | none, _ => none
    | some n, some (m, p, u) => if n = m then some (m, p, u) else some (n, l2Prio s n, s.clock.u)
    | some n, none => some (n, l2Prio s n, s.clock.u))) s.l2.sel

/-- A level 1 source is pending and unmasked (R365, WFI): for a distaff core, its level 2 request line with GEN[0]. -/
def State.wfiWake (s : State) (k : Nat) : Bool :=
  if k < 128 then (s.l1Pick k).isSome
  else (s.l2Pick (k - 128)).isSome && (s.cpu k).vbase.getLsbD 0

/-- The core state at interrupt entry (R358, R369): drained first, PC at the vector of source n. -/
def State.takeInterrupt (s : State) (k n : Nat) : State :=
  let st := s.stReg k
  let idle := (s.core k).run = .idle
  let s := s.modCore k fun c =>
    let c := c.drain
    let epc := if idle then idleMarker else c.cpu.pc
    let est := if idle then BitVec.ofNat 64 5 else st
    let cause := if k < 128 then BitVec.ofNat 64 (32 + n * 64) else BitVec.ofNat 64 32
    { c with cpu := c.cpu.enter k est false epc cause 0 (intVector c.cpu.vbase n), run := .executing }
  let s := if idle then s.modDisp k fun d => { d with handler := true } else s
  s.vectorCheck k

/-- Deliver level 1 source n on spindle k (R368, R370): from pending to active, its group's hold-off starts, and the
record names it. -/
def State.deliverL1 (s : State) (k n : Nat) : State :=
  let w := s.posOf k
  let x := s.l1 w
  let bit : DWord := BitVec.ofNat 64 (2 ^ n)
  let s := s.setL1 w { x with
    pend := x.pend &&& ~~~bit
    active := x.active ||| bit
    remain := tabSet 0 x.remain (n / 8) (tabGet 0 x.hold (n / 8)) }
  let s := s.modCpu k fun c => { c with inServ := some (BitVec.ofNat 6 n), xdepth := 0 }
  s.takeInterrupt k n

/-- A boundary at which an interrupt may be taken (R315): no device load outstanding, not halted, no KEND or abort
due, no preemption to act on (R384). -/
def State.atBoundary (s : State) (k : Nat) : Bool :=
  let c := s.core k
  c.run ≠ .halted && c.run ≠ .off && c.cpu.outLoad.isNone &&
    (k ≥ 128 || (!(s.disp k).ending && (s.disp k).stop.isNone && !(s.disp k).preempt))

end Sys2Proof.Machine
end

