-- ==== Sys2Proof/Machine/Parsal.lean ====
section
/-! DEFINITION. Issue of a Parsal instruction, its word, and its results: what every instruction of a core shares
(08 R272, R275, R283, 09 R303, R307). -/

namespace Sys2Proof.Machine
open Sys2Proof

/-! ## Instruction words (08 Table 8-6) -/

/-- Format Reg, with [10:6] = x. -/
def wReg (major : Nat) (rd rs1 rs2 : RegId) (x f : Nat) : Word :=
  BitVec.ofNat 32 (major * 2 ^ 26 + rd.toNat * 2 ^ 21 + rs1.toNat * 2 ^ 16 + rs2.toNat * 2 ^ 11 + x * 2 ^ 6 + f)
/-- Format Imm and Br. -/
def wImm (major : Nat) (rd rs1 : RegId) (imm : Nat) : Word :=
  BitVec.ofNat 32 (major * 2 ^ 26 + rd.toNat * 2 ^ 21 + rs1.toNat * 2 ^ 16 + imm)
/-- Format Mem: segment in [15:13], offset in [12:0]. -/
def wMem (major : Nat) (rd rs1 : RegId) (seg : SegId) (off : Nat) : Word :=
  wImm major rd rs1 (seg.toNat * 2 ^ 13 + off)

/-! ## Issue -/

/-- A fetch from another line that hits loads the line buffer and becomes the most recently used of its set (R307); so does one from
the buffer's own line (DESIGN CHOICE, log entry 169). -/
def State.touchLine (s : State) (k : Nat) (a : Nat) : State :=
  if 0x8000000000000000 ≤ a then s
  else
    let c := s.core k
    let set := tabGet [] c.icache (a / 64 % 64)
    match set.find? fun l => l.1 = a / 64 with
    | some l =>
      s.setCore k { c with
        cpu := { c.cpu with lineBuf := some l }
        icache := tabSet [] c.icache (a / 64 % 64) (l :: set.filter fun m => m.1 ≠ a / 64) }
    | none => s

/-- The instruction can leave IS (R303): the core runs, no device load is outstanding, no KEND or abort is due, and no
operation in flight writes one of its registers. -/
def State.canIssue (s : State) (k : Nat) (regs : List RegId) : Bool :=
  let c := s.core k
  (c.run = .executing || (c.run = .wfi && s.wfiWake k && !c.cpu.ie)) &&
  c.cpu.outLoad.isNone &&
  (k ≥ 128 || (!(s.disp k).ending && (s.disp k).stop ≠ some .fault)) &&
  c.results.all fun r => r.writes.all fun w => w.1 = 0 || !regs.contains w.1

/-- The core runs: a wait in WFI that is over ends (12 R365). -/
def State.awake (s : State) (k : Nat) : State := s.modCore k fun c => { c with run := .executing }

/-- The state in which an instruction of core k that issues has its effect: its line is in the line buffer. -/
def State.begun (s : State) (k : Nat) : State :=
  ((s.awake k).touchLine k ((s.awake k).pc k).toNat).modCpu k fun c => { c with entered := false }

/-- The fetch at PC of core k raises: the exception, or the halt of R361 where it is the first fetch at a vector. -/
def State.fetchRaise (s : State) (k code : Nat) : State :=
  if (s.cpu k).entered then s.haltCore k else s.takeException k code (s.pc k) (s.pc k)

/-- Issue of one instruction on core k. An instruction that must wait changes nothing. A skipped one only advances the
PC and clears SK (08 R283). A fetch fault is taken first (R357). -/
def State.issue (s : State) (k : Nat) (regs : List RegId) (body : State → State) : State :=
  let t := s.awake k
  if !s.canIssue k regs then s
  else if (t.cpu k).sk then t.modCpu k fun c => { c with st := c.st &&& ~~~16, pc := c.pc + 4 }
  else match t.fetchFault k (t.pc k) with
    | some code => t.fetchRaise k code
    | none => if t.fetchReady k (t.pc k).toNat then body (s.begun k) else t

/-- The instruction at PC of core k issues and has its effect: it leaves IS, it is not skipped, and its fetch succeeds. -/
def State.issues (s : State) (k : Nat) (regs : List RegId) : Bool :=
  let t := s.awake k
  s.canIssue k regs && !(t.cpu k).sk && (t.fetchFault k (t.pc k)).isNone && t.fetchReady k (t.pc k).toNat

/-- Write rd and go to the next instruction. -/
def State.result (s : State) (k : Nat) (rd : RegId) (v : DWord) : State :=
  s.modCpu k fun c => { c.set rd v with pc := c.pc + 4 }

/-- A pair result: rd and rd + 1 written together (08 R278). -/
def State.resultPair (s : State) (k : Nat) (rd : RegId) (lo hi : DWord) : State :=
  s.modCpu k fun c => { (c.set rd lo).set (rd + 1) hi with pc := c.pc + 4 }

/-- rd can hold a pair: even and not g0 (R278). -/
def pairOk (rd : RegId) : Bool := rd.toNat % 2 = 0 && rd ≠ 0

/-- The 32-bit form writes its result zero-extended (R276). -/
def low32 (x : DWord) : Word := x.setWidth 32

/-! ## Integer functions (08 Table 8-8, R277 to R280) -/

/-- Shift and rotate, kinds 0 SHL, 1 SHR, 2 SAR, 3 ROR, on 64 bits. -/
def shift64 (kind : Nat) (a : DWord) (n : Nat) : DWord :=
  match kind with
  | 0 => a <<< n
  | 1 => a >>> n
  | 2 => a.sshiftRight n
  | _ => a.rotateRight n

/-- The 32-bit forms. -/
def shift32 (kind : Nat) (a : DWord) (n : Nat) : DWord :=
  let x := low32 a
  (match kind with
  | 0 => x <<< n
  | 1 => x >>> n
  | 2 => x.sshiftRight n
  | _ => x.rotateRight n).setWidth 64

/-- PERMB (R280). -/
def permb (a b : DWord) : DWord :=
  BitVec.ofNat 64 (natOfBytes ((List.range 8).map fun j =>
    let sel := bvFld b (4 * j) 4
    if bitOf sel 3 then 0 else BitVec.ofNat 8 (bvFld a (8 * (sel % 8)) 8)))

/-- Table 8-8: what rd receives from rs1 and rs2; none for a function code the table does not assign. -/
def intAlu (func : Nat) (a b : DWord) : Option DWord :=
  match func with
  | 0x00 => some (a + b)
  | 0x01 => some (a - b)
  | 0x02 => some (a &&& b)
  | 0x03 => some (a ||| b)
  | 0x04 => some (a ^^^ b)
  | 0x05 => some (a &&& ~~~b)
  | 0x06 => some (allOnes64 (a.slt b))
  | 0x07 => some (allOnes64 (a.ult b))
  | 0x08 => some (shift64 0 a (bvFld b 0 6))
  | 0x09 => some (shift64 1 a (bvFld b 0 6))
  | 0x0A => some (shift64 2 a (bvFld b 0 6))
  | 0x0B => some (shift64 3 a (bvFld b 0 6))
  | 0x0C => some ((low32 a + low32 b).setWidth 64)
  | 0x0D => some ((low32 a - low32 b).setWidth 64)
  | 0x0E => some (shift32 0 a (bvFld b 0 5))
  | 0x0F => some (shift32 1 a (bvFld b 0 5))
  | 0x10 => some (shift32 2 a (bvFld b 0 5))
  | 0x11 => some (if a.slt b then a else b)
  | 0x12 => some (if b.slt a then a else b)
  | 0x13 => some (if a.ult b then a else b)
  | 0x14 => some (if b.ult a then a else b)
  | 0x18 => some (BitVec.ofNat 64 (clzNat 64 a.toNat))
  | 0x19 => some (BitVec.ofNat 64 (clzNat 32 (a.toNat % 2 ^ 32)))
  | 0x1A => some (permb a b)
  | _ => none

/-- Product of MUL, MULX and MUL32 (Table 8-9): low and high doubleword. -/
def mulOp (op : MulOp) (a b : DWord) : DWord × DWord :=
  let wide (x : Int) : DWord × DWord :=
    let p : BitVec 128 := BitVec.ofInt 128 x
    (p.setWidth 64, (p >>> 64).setWidth 64)
  match op with
  | .mul => (a * b, 0)
  | .mulxSS => wide (a.toInt * b.toInt)
  | .mulxUU => wide ((a.toNat * b.toNat : Nat) : Int)
  | .mulxSU => wide (a.toInt * (b.toNat : Int))
  | .mul32 => ((low32 a * low32 b).setWidth 64, 0)

/-- Quotient and remainder in w bits (R278): truncation toward zero, the remainder with the dividend's sign; division by
zero gives a saturated quotient and the dividend; the overflow case wraps to the most negative value. -/
def divRem (w : Nat) (signed : Bool) (a b : BitVec w) : BitVec w × BitVec w :=
  if signed then
    if b = 0 then (if a.toInt < 0 then BitVec.intMin w else BitVec.intMax w, a)
    else (BitVec.ofInt w (a.toInt.tdiv b.toInt), BitVec.ofInt w (a.toInt.tmod b.toInt))
  else if b = 0 then (BitVec.allOnes w, a)
  else (a / b, a % b)

/-- DQR.S, DQR.U, DQR32.S, DQR32.U. -/
def dqrOp (op : DqrOp) (a b : DWord) : DWord × DWord :=
  let narrow (p : Word × Word) : DWord × DWord := (p.1.setWidth 64, p.2.setWidth 64)
  match op with
  | .dqrS => divRem 64 true a b
  | .dqrU => divRem 64 false a b
  | .dqr32S => narrow (divRem 32 true (low32 a) (low32 b))
  | .dqr32U => narrow (divRem 32 false (low32 a) (low32 b))

/-- BFX, BFXS and BFI (R279): old is the value of rd before. -/
def bfOp (kind : Nat) (a old : DWord) (len pos : Nat) : DWord :=
  match kind with
  | 0 => BitVec.ofNat 64 (bvFld a pos len)
  | 1 => sext64 len (bvFld a pos len)
  | _ => bvSet old pos len a.toNat

/-- The conditions of R281: 0 EQ, 1 NE, 2 LT, 3 GE, 4 LO, 5 HS. -/
def condHolds (cc : Nat) (a b : DWord) : Bool :=
  match cc with
  | 0 => a = b
  | 1 => a ≠ b
  | 2 => a.slt b
  | 3 => !a.slt b
  | 4 => a.ult b
  | _ => !a.ult b

/-! ## Which words are legal (08 R275, Table 8-7) -/

/-- Fields fixed by the encoding hold what this chapter requires (R275 item 2), for a word of an assigned major other
than 0x00. Checks that depend on registers (SVL, the SR table, operands of short vectors) belong to the instruction. -/
def legalWord (w : Nat) : Bool :=
  let major := fld w 26 6
  let rd := fld w 21 5
  let rs1 := fld w 16 5
  let rs2 := fld w 11 5
  let f := fld w 0 6
  match major with
  | 0x01 | 0x02 | 0x03 | 0x04 | 0x05 | 0x06 => true
  | 0x07 => fld w 6 7 = 0 && !(bitOf w 13 && 32 ≤ f)
  | 0x08 | 0x09 => fld w 16 3 = 0
  | 0x0A => fld w 6 5 = 0 && (f = 0 || f = 4 || (((1 ≤ f && f ≤ 3) || (8 ≤ f && f ≤ 11)) && rd % 2 = 0 && rd ≠ 0))
  | 0x0B => fld w 12 2 = 0 && fld w 14 2 ≠ 3 && fld w 0 6 + fld w 6 6 + 1 ≤ 64
  | 0x0C => fld w 22 4 ≤ 5 && fld w 21 1 = 0 && fld w 0 11 = 0
  | 0x0D => fld w 22 4 ≤ 1 && fld w 21 1 = 0 && fld w 0 10 = 0
  | 0x0E => true
  | 0x10 | 0x11 | 0x12 | 0x13 | 0x14 | 0x15 | 0x16 | 0x17 | 0x18 => true
  | 0x20 | 0x21 | 0x22 | 0x23 | 0x24 | 0x25 | 0x26 => true
  | 0x28 | 0x29 | 0x2A | 0x2B => true
  | 0x2C => fld w 3 5 = 0 && fld w 0 3 ≤ 4 && ((fld w 0 3 ≠ 0 && fld w 0 3 ≠ 1 && fld w 0 3 ≠ 4) || rs2 = 0)
  | 0x2D =>
    let fn := fld w 0 2
    rd ≠ 0 && rs1 ≠ 0 && rs2 ≠ 0 && rd ≠ rs1 && rd ≠ rs2 && rs1 ≠ rs2 &&
      !(fld w 8 3 ≠ 0 && (fn = 1 || fn = 3)) && !(bitOf w 2 && fn ≠ 0)
  | 0x2E =>
    (f ≤ 7 && fld w 6 5 = 0) || f = 8 || (f = 9 && rd = 0)
  | 0x30 => fld w 6 5 = 0 && f / 2 ≤ 16 && !(f / 2 = 4 && rs2 ≠ 0)
  | 0x31 => fld w 3 3 = 0 && fld w 1 2 ≠ 3
  | 0x32 => fld w 6 4 = 0 && f ≤ 0x15
  | 0x33 => fld w 0 4 ≤ 11
  | 0x34 => fld w 12 1 = 0 || fld w 0 6 = 0
  | 0x35 => fld w 0 9 = 0 && rs2 ≤ 0x0C
  | 0x38 => true
  | 0x39 =>
    let fn := fld w 0 4
    fn ≤ 5 && fld w 4 6 = 0 && !(fn = 2 && bitOf w 15) && !(fn ≤ 1 && bitOf w 10 && 0x10 ≤ rs2)
  | 0x3A => fld w 3 5 = 0 && fld w 0 3 ≠ 7 && !(fld w 0 3 = 4 && fld w 8 3 ≠ 0)
  | 0x3B => fld w 3 3 = 0 && rs2 = 0 && fld w 0 3 ≤ 4
  | _ => false

/-- INTEGER_ALU: a word of major 0x00 computes Table 8-8; a word that no rule assigns raises Illegal Instruction, and a
word of majors 0x3C to 0x3F Coprocessor Absent (R275). A legal word of another major is another row's command, and on a distaff
core,
which has no sequencer and no check channel, one of majors 0x38, 0x39 and 0x3B leaves the core as it is (DESIGN CHOICE, log entry
168). -/
def State.wordInstr (s : State) (k : Nat) (w : Word) : State :=
  let x := w.toNat
  let major := fld x 26 6
  let rd : RegId := BitVec.ofNat 5 (fld x 21 5)
  let rs1 : RegId := BitVec.ofNat 5 (fld x 16 5)
  let rs2 : RegId := BitVec.ofNat 5 (fld x 11 5)
  let func := fld x 0 6
  if major = 0 then
    s.issue k [rd, rs1, rs2] fun s =>
      match intAlu func (s.g k rs1) (s.g k rs2) with
      | some v =>
        if fld x 6 5 ≠ 0 || ((func = 0x18 || func = 0x19) && rs2 ≠ 0) then s.raiseWord k 1 w else s.result k rd v
      | none => s.raiseWord k 1 w
  else if 0x3C ≤ major then s.issue k [] fun s => s.raiseWord k 3 w
  else if legalWord x then s
  else s.issue k [] fun s => s.raiseWord k 1 w

end Sys2Proof.Machine
end

