-- ==== Sys2Proof/Machine/Check.lean ====
section
/-! DEFINITION. Check units: the polynomials, the CP2 operations and the alive-counter check (08 R299, 13 R399 to R402). -/

namespace Sys2Proof.Machine
open Sys2Proof

/-! ## Polynomials (Table 13-5) -/

def crcWidth (code : Nat) : Nat := if code = 2 then 16 else if code = 3 then 24 else 32

def crcInit (code : Nat) : Nat := if code = 2 then 0xFFFF else if code = 3 then 0xB704CE else 0xFFFFFFFF

def crcXorOut (code : Nat) : Nat := if code = 2 || code = 3 then 0 else 0xFFFFFFFF

/-- One bit-step of a reflected code, polynomial p reflected. -/
def crcStepR (p r : Nat) : Nat := if r % 2 = 1 then (r / 2) ^^^ p else r / 2

/-- One bit-step of a code that is not reflected, of width w. -/
def crcStepL (w p r : Nat) : Nat := if bitOf r (w - 1) then ((2 * r) % 2 ^ w) ^^^ p else 2 * r

/-- Feed one byte into the running value (R399). -/
def crcByte (code r : Nat) (b : Byte) : Nat :=
  match code with
  | 0 => (List.range 8).foldl (fun r _ => crcStepR 0x82F63B78 r) (r ^^^ b.toNat)
  | 1 => (List.range 8).foldl (fun r _ => crcStepR 0xEDB88320 r) (r ^^^ b.toNat)
  | 2 => (List.range 8).foldl (fun r _ => crcStepL 16 0x1021 r) (r ^^^ (b.toNat * 2 ^ 8))
  | _ => (List.range 8).foldl (fun r _ => crcStepL 24 0x864CFB r) (r ^^^ (b.toNat * 2 ^ 16))

/-- The CRC of a byte string (R399). -/
def crcOf (code : Nat) (l : List Byte) : Nat := l.foldl (crcByte code) (crcInit code) ^^^ crcXorOut code

/-! ## The alive-counter check (R402, Table 13-6) -/

/-- Code, whether v is accepted, and the missing count. last: the last accepted value, none when V = 0. -/
def aliveCheck (last : Option Byte) (v : Byte) : Nat × Bool × Nat :=
  match last with
  | none => (0, true, 0)
  | some l =>
    let d := (v - l).toNat
    if d = 1 then (0, true, 0)
    else if d = 0 then (1, false, 0)
    else if d < 128 then (2, true, d - 1)
    else (3, false, 0)

/-- A saturating 16-bit count. -/
def sat16 (n : Nat) : Nat := min n 0xFFFF

/-- CK_CNT counts codes 1 to 3. -/
def CheckCtl.count (c : CheckCtl) (code : Nat) : CheckCtl :=
  match code with
  | 1 => { c with repeat_ := sat16 (c.repeat_ + 1) }
  | 2 => { c with gap := sat16 (c.gap + 1) }
  | 3 => { c with stale := sat16 (c.stale + 1) }
  | _ => c

/-- CKALIVE on channel k: the result, and the state. -/
def State.aliveOf (s : State) (k : Nat) (v : Byte) : Nat × State :=
  let c := s.check k
  let a := aliveCheck (if c.v then some c.lv else none) v
  let s := if a.2.1 then s.setCheck k { c with lv := v, v := true } else s
  let s := s.setCheckCtl k ((s.checkCtl k).count a.1)
  let s := if a.1 ≠ 0 && (s.checkCtl k).airq then s.l1EventAt k 4 else s
  (a.1 + a.2.2 * 2 ^ 8, s)

/-! ## CP2 (R299, R400) -/

/-- A CP2 read issues: its result is written n cycles (CORE) later, and later instructions may pass it (09 R303, Table 9-4). -/
def State.cp2Issue (s : State) (k : Nat) (rd : RegId) (v : DWord) (n : Nat) : State :=
  (s.advance k).modCore k fun x =>
    { x with results := x.results ++
        [{ unit := .cp2, busy := false, writes := [(rd, v)], flags := 0, due := some (s.clock.u + n) }] }

/-- The CP2 reads that are due by cycle u write their results. -/
def Core.landCp2 (c : Core) (u : Nat) : Core :=
  let due (r : PendRes) : Bool := match r.due with | some d => decide (d ≤ u) | none => false
  { c with cpu := (c.results.filter due).foldl Cpu.complete c.cpu, results := c.results.filter fun r => !due r }

def execCkrd (k : Spindle) (rd : RegId) (s : State) : Host.Outcome State Fault Refusal :=
  .next (s.issue k.toNat [rd] fun s => s.cp2Issue k.toNat rd ((s.check k.toNat).r.setWidth 64) 3)

def execCkwr (k : Spindle) (rs1 : RegId) (s : State) : Host.Outcome State Fault Refusal :=
  .next (s.issue k.toNat [rs1] fun s =>
    let c := s.check k.toNat
    (s.setCheck k.toNat { c with r := BitVec.ofNat 32 (bvFld (s.g k.toNat rs1) 0 (crcWidth c.poly.toNat)) }).advance k.toNat)

def execCkpoly (k : Spindle) (poly : BitVec 2) (s : State) : Host.Outcome State Fault Refusal :=
  .next (s.issue k.toNat [] fun s =>
    (s.setCheck k.toNat { s.check k.toNat with
      poly := poly, r := BitVec.ofNat 32 (crcInit poly.toNat) }).advance k.toNat)

def execCkupd (k : Spindle) (rs1 : RegId) (nM1 : BitVec 3) (s : State) : Host.Outcome State Fault Refusal :=
  .next (s.issue k.toNat [rs1] fun s =>
    let c := s.check k.toNat
    let l := bytesOfNat (nM1.toNat + 1) (s.g k.toNat rs1).toNat
    (s.setCheck k.toNat { c with r := BitVec.ofNat 32 (l.foldl (crcByte c.poly.toNat) c.r.toNat) }).advance k.toNat)

def execCkalive (k : Spindle) (rd rs1 : RegId) (s : State) : Host.Outcome State Fault Refusal :=
  .next (s.issue k.toNat [rd, rs1] fun s =>
    let a := s.aliveOf k.toNat ((s.g k.toNat rs1).setWidth 8)
    a.2.cp2Issue k.toNat rd (BitVec.ofNat 64 a.1) 2)

end Sys2Proof.Machine
end

