-- ==== Sys2Proof/Machine/Egress.lean ====
section
/-! DEFINITION. The egress scheduler of a logical port: timed launches and untimed frames (15 R447 to R451, 06 R228). -/

namespace Sys2Proof.Machine
open Sys2Proof

/-- The wire time of a frame on a logical port. -/
def State.wireTime (s : State) (port len : Nat) : Nat := wireNs len ((s.portRate port).getD 400)

/-- A launch is missed (R449): the VOID event carries the frame's status with LAUNCH_MISSED, and EGRESS when eg. -/
def State.launchMissed (s : State) (f : TxFrame) (eg : Bool) : State :=
  match f.ctx with
  | some c => s.voidEvent c f.rel (f.status ||| sLaunchMissed ||| if eg then sEgress else 0) f.seq
  | none => s

/-- The frame would end after r + O + W (R449). -/
def State.endsLate (s : State) (port : Nat) (f : TxFrame) : Bool :=
  decide (f.limit < f.at_ + s.wireTime port f.bytes.length)

/-- It cannot start within 8 ns of its launch time (R449): a commit less than 1,500 ns before it, or a read not ended. -/
def TxFrame.cannotStart (f : TxFrame) (readLate : Bool) : Bool := decide (f.at_ < f.commit + 1500) || readLate

/-- What lies between a port's clock and the MDI on transmit: the fixed latency of the mode and TX_LAT_ADJ (R445). -/
def State.txLag (s : State) (n : Nat) : DWord :=
  BitVec.ofNat 64 (Config.txLatency (s.dget (0x2100 + n / 4) 1)) + (BitVec.ofNat 32 (s.dget (0x2110 + n) 4)).signExtend 64

/-- The egress timestamp of the last frame of a port, referred to the MDI (R445). -/
def State.egressTs (s : State) (n : Nat) : DWord := (s.port n).raw + s.txLag n

/-- Start frame f at t, as its timestamp point leaves the MDI (R445): it is on the wire until its wire time has passed. -/
def State.startFrame (s : State) (port t : Nat) (f : TxFrame) : State :=
  (s.setPort port { s.port port with
    busy := t + s.wireTime port f.bytes.length, raw := BitVec.ofNat 64 t - s.txLag port }).send (.frame port t f.bytes)

/-- The port can send: it is in use and the node is not in FAULT (17 R504). -/
def State.portSends (s : State) (port : Nat) : Bool := (s.portRate port).isSome && s.node ≠ .fault

/-- The timed frame whose launch time comes first (R447), whichever stream's it is; of equal ones the first committed. -/
def Egress.first (g : Egress) : Option TxFrame :=
  g.timed.foldl (fun b f => match b with
    | none => some f
    | some y => if f.at_ < y.at_ then some f else some y) none

/-- The first timed frame of the port, at its launch time. readLate: its scratch read has not ended, where it has one to make;
chk: what the check bits of its bytes say. -/
def State.timedLaunch (s : State) (port : Nat) (readLate : Bool) (chk : DataCheck) : State :=
  let g := s.port port
  match g.first with
  | none => s
  | some f =>
    if s.now < f.at_ || !s.portSends port then s
    else
      let late := readLate && f.src.isSome
      let s := s.setPort port { g with timed := g.timed.erase f }
      let r := if late then (f, s) else s.readFrame f chk
      if s.endsLate port f then (s.readFrame f chk).2.launchMissed f true
      else if f.cannotStart late then
        if s.dget (0x2110 + port) 2 = 1 then
          let s := r.2.launchMissed f late
          s.setPort port { s.port port with late := (s.port port).late ++ [{ r.1 with at_ := f.at_ + 8 }] }
        else (s.readFrame f chk).2.launchMissed f late
      else r.2.startFrame port (min s.now (f.at_ + 7)) r.1

def execTimedLaunch (port : PortId) (readLate : Checked Bool DataCheck) (s : State) : Host.Outcome State Fault Refusal :=
  .next (s.timedLaunch port.toNat readLate.val readLate.chk)

/-! ## Scratch reads (R448) -/

/-- Frame f of a port becomes f'. -/
def Egress.swap (g : Egress) (f f' : TxFrame) : Egress :=
  let one (l : List TxFrame) : List TxFrame := l.map fun x => if x = f then f' else x
  { g with timed := one g.timed, late := one g.late }

/-- The reads of a port in a nanosecond: which of them end in it is a free choice; R448 bounds a burst's. -/
def State.portReads (s : State) (port : Nat) : State :=
  (((s.port port).timed ++ (s.port port).late).filter fun f => f.src.isSome).foldl (fun s f =>
    let v := s.fresh
    if v.1.getLsbD 0 then
      let r := v.2.readFrame f .ok
      r.2.setPort port ((r.2.port port).swap f r.1)
    else v.2) s

def State.egressReads (s : State) : State := (s.egress.map Prod.fst).foldl State.portReads s

/-! ## Governor frames (R452; the layout of a PTP message is IEEE 1588's: PRESUMED, log entry 82) -/

/-- A timestamp of a PTP message: 48 bits of seconds and 32 of nanoseconds, most significant byte first. -/
def ptpTime (ts : DWord) : List Byte :=
  (bytesOfNat 6 (ts.toNat / 10 ^ 9)).reverse ++ (bytesOfNat 4 (ts.toNat % 10 ^ 9)).reverse

/-- A frame with a timestamp in its originTimestamp field. -/
def withOrigin (l : List Byte) (ts : DWord) : List Byte := l.take 48 ++ ptpTime ts ++ l.drop 58

/-- A PTP message of a type in a frame: EtherType 0x88F7 and the type's nibble. -/
def ptpMessage (type : Nat) (l : List Byte) : List Byte :=
  l.take 12 ++ [0x88, 0xF7, BitVec.ofNat 8 ((l.getD 14 0).toNat / 16 * 16 + type)] ++ l.drop 15

/-- The frame is a Sync. -/
def isSync (l : List Byte) : Bool := decide ((l.getD 14 0).toNat % 16 = 0)

/-- A governor frame starts: a Sync takes its originTimestamp as it passes in one-step operation, and gives its egress timestamp to
the governor in two-step operation (R452), as a timestamp event of its port (12 Table 12-9). -/
def State.startGov (s : State) (port : Nat) (f : TxFrame) : State :=
  let s' := s.startFrame port s.now f
  if !isSync f.bytes then s'
  else if s.dget 0x2140 5 = 1 then s.startFrame port s.now { f with bytes := withOrigin f.bytes (s'.egressTs port) }
  else (s'.setPort port { s'.port port with twoStep := some (s'.egressTs port) }).l2Event (16 + port / 4)

/-- n fresh bytes. -/
def State.freshBytes (n : Nat) (s : State) : List Byte × State :=
  let v := s.clock.free
  ((List.range n).map fun i => (Config.freeWord (v + i)).setWidth 8, { s with clock := { s.clock with free := v + n } })

/-- A TIME cycle of the governor's PTP on a port (R452): a free choice whether it gives the egress scheduler a frame, and what is in
it but for a Follow_Up's timestamp (log entry 82). -/
def State.govPost (s : State) (port : Nat) : State :=
  let v := s.fresh
  if !v.1.getLsbD 0 then v.2
  else
    let b := State.freshBytes (60 + (v.1 >>> 1).toNat % 9153) v.2
    let g := b.2.port port
    let ptp (l : List Byte) : TxFrame := ⟨none, 0, 0, 0, l, 0, 0, 0, none⟩
    match g.twoStep with
    | some ts => b.2.setPort port { g with twoStep := none, gov := g.gov ++ [ptp (withOrigin (ptpMessage 8 b.1) ts)] }
    | none => b.2.setPort port { g with gov := g.gov ++ [ptp (ptpMessage ((v.1 >>> 32).toNat % 16) b.1)] }

/-- The governor's frames of a TIME cycle: on the ports in PTP_PORTS, while the node has a PTP role. -/
def State.govFrames (s : State) : State :=
  if s.dget 0x2140 1 = 0 || s.node = .fault then s
  else ((List.range 32).filter fun n => bitOf (s.dget 0x2140 4) n && (s.portRate n).isSome).foldl State.govPost s

/-! ## Untimed frames (R450, R451) -/

/-- [t, t + n) meets an occupancy of a timed stream: launches at a mod T, each occ long. -/
def meetsOccupancy (a occ period t n : Nat) : Bool :=
  let p := max period 1
  let d := (t + (p - a % p)) % p
  decide (d < occ) || decide (p < d + n)

/-- The wire is free at t for a frame of len bytes: nothing on it, and no occupancy of an admitted timed stream. -/
def State.wireFree (s : State) (port t len : Nat) : Bool :=
  decide ((s.port port).busy ≤ t) &&
    (s.timedOn port).all fun e =>
      !meetsOccupancy ((s.aux e.1).phase + ctxOffset e.2) (ctxJitter e.2 + (s.aux e.1).egressNs + 8) (ctxPeriod e.2) t
        (s.wireTime port len + 8)

/-- FCI pauses the queue (06 R228). -/
def State.fciPauses (s : State) (x : Queue) : Bool :=
  x.wmen && (s.qe.fci &&& s.qe.fcien &&& (s.wmGroup x.wmg.toNat).fcimask) ≠ 0

/-- The queue bound by QEGRESS whose turn it is on the port (R451): the next number after the last served, round robin. -/
def State.egressTurn (s : State) (port : Nat) : Option Nat :=
  let l := (s.qe.queues.filter fun e => e.2.egress = some port && e.2.state = .active && e.2.flush &&
    !e.2.items.isEmpty && !s.timedOut e.2 && !s.fciPauses e.2 && !(s.region e.2.owner.toNat).scrubbing).map Prod.fst
  match l.find? fun q => (s.port port).rr < q with
  | some q => some q
  | none => l.head?

/-- [a, a + n) lies in HBM granules of partition p, or in hanks owned by the host window (R451). -/
def State.untimedReads (s : State) (p a n : Nat) : Bool :=
  if a < 0x001800000000 then s.ownsRange p a n
  else
    decide (0x010000000000 ≤ a) && decide (a + n ≤ 0x010010000000) &&
      (List.range (n / 0x400000 + 2)).all fun i =>
        let h := (a - 0x010000000000) / 0x400000 + i
        a + n ≤ hankBase h || s.hankServes h 17

/-- The bytes of an untimed frame are read: from HBM through Throughput service, which may have to wait (R451, 05 R195). -/
def State.untimedWaits (s : State) (a n : Nat) : Bool := isHbm a && !s.matrixNow a n

/-- One item of a QEGRESS queue: its frame starts, or it is dropped into TX_DROPS; a link word that fails its check breaks the
queue instead (06 R214). chk: what the check bits of its cell and of its bytes say. -/
def State.queueFrame (s : State) (port q : Nat) (chk : FrameCheck) : State :=
  let x := s.queue q
  match x.items with
  | [] => s
  | i :: _ =>
    let take (s : State) : State :=
      ((s.popItem q chk.cell).2).setPort port { s.port port with rr := q }
    if chk.cell.link then (s.popItem q chk.cell).2
    else match egressItem i with
    | some (a, len) =>
      if !s.untimedReads x.owner.toNat a len then (take s).portDrop port txDropsSub
      else if !s.wireFree port s.now len || s.untimedWaits a len then s
      else ((take s).memCheck a chk.data).startFrame port s.now
        { ctx := none, seq := 0, rel := 0, status := 0, bytes := s.bytes a len, at_ := s.now, limit := 0, commit := s.now }
    | none => (take s).portDrop port txDropsSub

/-- A frame of the third source is eligible: its read has ended, and under LATE_FRAME its launch is missed (R451). -/
def State.lateReady (s : State) (f : TxFrame) : Bool :=
  f.src.isNone && (f.status &&& sLate ≠ 0 || decide (f.at_ ≤ s.now))

/-- The eligible frame of the third source that was committed first. -/
def State.firstLate (s : State) (port : Nat) : Option TxFrame :=
  ((s.port port).late.filter s.lateReady).foldl (fun b f => match b with
    | none => some f
    | some y => if f.commit < y.commit then some f else some y) none

/-- The first frame of the third source: in commit order, once it is eligible (R451). -/
def State.lateFrame (s : State) (port : Nat) : State :=
  let g := s.port port
  match s.firstLate port with
  | some f =>
    if !s.wireFree port s.now f.bytes.length then s
    else (s.setPort port { g with late := g.late.erase f }).startFrame port s.now f
  | none => s

/-- UNTIMED_FRAME_START: the governor's frames first; between the other two sources, which R451 does not rank, a free
choice. -/
def State.untimedStart (s : State) (port : Nat) (chk : FrameCheck) : State :=
  let g := s.port port
  if !s.portSends port then s
  else match g.gov with
    | f :: r => if s.wireFree port s.now f.bytes.length then (s.setPort port { g with gov := r }).startGov port f else s
    | [] =>
      match s.egressTurn port, (s.firstLate port).isNone with
      | some q, true => s.queueFrame port q chk
      | some q, false =>
        let r := s.fresh
        if r.1.getLsbD 0 then r.2.queueFrame port q chk else r.2.lateFrame port
      | none, _ => s.lateFrame port

def execUntimedFrameStart (port : Checked PortId FrameCheck) (s : State) : Host.Outcome State Fault Refusal :=
  .next (s.untimedStart port.val.toNat port.chk)

end Sys2Proof.Machine
end

