-- ==== Sys2Proof/Machine/Interrupts.lean ====
section
/-! DEFINITION. The interrupt commands: level 1 delivery, sets, clears, hold-offs and the event log (12 R367 to R376), level 2
claim and completion (R377 to R381), MSI-X unmasking (R383). -/

namespace Sys2Proof.Machine
open Sys2Proof

/-- The controller is idle but a skein, or a saved handler (R373), waits for its DISPATCH: it is not in the idle wait (08 R290,
12 R369). -/
def State.dispatchDue (s : State) (k : Nat) : Bool :=
  (s.core k).run = .idle && k < 128 && ((s.disp k).best.isSome || (s.disp k).savedHandler.isSome)

/-- INTERRUPT_DELIVERY (R367, R368, R370; R378 for a distaff core): at a boundary, with IE = 1 and no source in service. A spare
replacement holds the delivery (17 R509). -/
def State.deliver (s : State) (k : Nat) : State :=
  let c := s.cpu k
  if !s.atBoundary k || !(c.ie || (s.core k).run = .idle) || s.dispatchDue k || (k < 128 && (s.disp k).drain) then s
  else if k < 128 then
    if c.inServ.isSome && (s.core k).run ≠ .idle then s
    else match s.l1Pick k with
      | some n => s.deliverL1 k n
      | none => s
  else if c.vbase.getLsbD 0 then
    match s.l2Pick (k - 128) with
    | some _ => s.takeInterrupt k 0
    | none => s
  else s

def execInterruptDelivery (c : CoreId) (s : State) : Host.Outcome State Fault Refusal := .next (s.deliver c.val)

/-- L1_HOLDOFF_EXPIRY: the hold-off of group g ends, in the nanosecond in which the last of its HOLDOFF cycles passes; the ticks
count the others, and before it the command changes nothing (DESIGN CHOICE, log entry 118). -/
def State.l1HoldoffEnd (s : State) (w g : Nat) : State :=
  let x := s.l1 w
  if tabGet 0 x.remain g ≤ s.coreCycles then s.setL1 w { x with remain := tabSet 0 x.remain g 0 } else s

def execL1HoldoffExpiry (w : PosId) (g : SegId) (s : State) : Host.Outcome State Fault Refusal :=
  .next (s.l1HoldoffEnd w.val g.toNat)

/-- A write to L1_SET: bits of reserved sources are ignored. -/
def State.l1SetBits (s : State) (w : Nat) (v : DWord) : State :=
  (List.range 64).foldl (fun s n => if v.getLsbD n then s.l1Event w n else s) s

def State.l1ClrBits (s : State) (w : Nat) (v : DWord) : State :=
  s.setL1 w { s.l1 w with pend := (s.l1 w).pend &&& ~~~v }

def execL1Set (w : PosId) (v : DWord) (s : State) : Host.Outcome State Fault Refusal := .next (s.l1SetBits w.val v)

def execL1Clr (w : PosId) (v : DWord) (s : State) : Host.Outcome State Fault Refusal := .next (s.l1ClrBits w.val v)

/-- A read of L1_EVT: the word, and the log without the entry. The 64 entries of the log are the first ones; a report that
a full log held enters at the read, and raises its level 2 source then. -/
def State.l1EvtRead (s : State) (w : Nat) : Nat × State :=
  let x := s.l1 w
  match x.evt with
  | [] => (0, s)
  | (c, kind) :: r =>
    let s1 := s.setL1 w { x with evt := r }
    let s2 := match r.drop 63, s.logOf w with
      | (_, k2) :: _, some k => s1.l2Event (2048 + 16 * k + k2)
      | _, _ => s1
    (c + kind * 2 ^ 18 + 2 ^ 63, s2)

def execL1Evt (w : PosId) (s : State) : Host.Outcome State Fault Refusal :=
  let r := s.l1EvtRead w.val
  .next (r.2.answer (.data (bytesOfNat 8 r.1)))

/-! ## Level 2 -/

/-- A read of CLAIM of core c (R379): the source, active from now on, and its group's hold-off. -/
def State.claimRead (s : State) (c : Nat) : Nat × State :=
  match s.l2Pick c with
  | none => (0, s)
  | some n =>
    let x := s.l2
    (n, { s with l2 := { x with
      pend := tabSet false x.pend n false
      active := tabSet false x.active n true
      remain := tabSet 0 x.remain (n / 64) (64 * tabGet 0 x.hold (n / 64)) } })

/-- A write of n to COMPLETE of core c: only for an active source routed to c. -/
def State.completeWrite (s : State) (c n : Nat) : State :=
  if tabGet false s.l2.active n && fld (tabGet (0 : BitVec 7) s.l2.src n).toNat 4 2 = c then
    { s with l2 := { s.l2 with active := tabSet false s.l2.active n false } }
  else s

def execClaim (k : BitVec 2) (s : State) : Host.Outcome State Fault Refusal :=
  let r := s.claimRead k.toNat
  .next (r.2.answer (.data (bytesOfNat 4 r.1)))

def execComplete (k : BitVec 2) (n : BitVec 12) (s : State) : Host.Outcome State Fault Refusal :=
  .next (s.completeWrite k.toNat n.toNat)

/-- A write to L2_SET of word w. -/
def State.l2SetBits (s : State) (w : Nat) (v : DWord) : State :=
  (List.range 64).foldl (fun s n => if v.getLsbD n then s.l2Event (64 * w + n) else s) s

def execL2Set (w : BitVec 6) (v : DWord) (s : State) : Host.Outcome State Fault Refusal := .next (s.l2SetBits w.toNat v)

/-- L2_HOLDOFF_EXPIRY: as L1_HOLDOFF_EXPIRY, on the timebase (R379). -/
def State.l2HoldoffEnd (s : State) (g : Nat) : State :=
  if tabGet 0 s.l2.remain g ≤ 1 then { s with l2 := { s.l2 with remain := tabSet 0 s.l2.remain g 0 } } else s

def execL2HoldoffExpiry (g : BitVec 6) (s : State) : Host.Outcome State Fault Refusal := .next (s.l2HoldoffEnd g.toNat)

/-! ## MSI-X -/

/-- The mask bit of a vector clears; a pending bit sends one message when the function lets it. -/
def State.unmaskVector (s : State) (fn vec : Nat) : State :=
  let e := s.msixEnt fn vec
  let f : MsixFn := tabGet {} s.msixFns fn
  if msixSize fn ≤ vec then s
  else if e.pend && f.enable && !f.fmask then
    (s.setMsix fn vec { e with mask := false, pend := false }).msixMessage fn vec
  else s.setMsix fn vec { e with mask := false }

/-- The Message Control word of a function's MSI-X capability: the table's size less 1, Function Mask and MSI-X Enable (PRESUMED,
log
entry 149: PCI Express's layout). -/
def State.msixControl (s : State) (fn : Nat) : Nat :=
  let f : MsixFn := tabGet {} s.msixFns fn
  msixSize fn - 1 + b2n f.fmask * 2 ^ 14 + b2n f.enable * 2 ^ 15

/-- A write of Message Control: Enable and Function Mask. A vector whose pending bit is set and that neither mask holds any more
sends
its message (R383). -/
def State.putMsixControl (s : State) (fn v : Nat) : State :=
  let s := { s with msixFns := tabSet {} s.msixFns fn { enable := bitOf v 15, fmask := bitOf v 14 } }
  (List.range (msixSize fn)).foldl (fun s vec => if (s.msixEnt fn vec).mask then s else s.unmaskVector fn vec) s

/-- The host writes the vector's mask in the table, a BAR access that a device in FAULT or held in reset does not complete (17 R491,
R504). -/
def execMsixUnmask (f : Fn) (vec : BitVec 7) (s : State) : Host.Outcome State Fault Refusal :=
  .next (if s.hostUp then s.unmaskVector (fnKey f) vec.toNat else s)

end Sys2Proof.Machine
end

