-- ==== Sys2Proof/Machine/Fabric.lean ====
section
/-! DEFINITION. Hanks, HBM controllers, granules and locks: handovers and scrubs (05 R180 to R182, R200, R209), power states
(R183, R184), the frame boundary and temperature of a stack (R192, R196, R199), the reservation records (R197, R198) and
granule ownership (07 R241, R256; 17 R489). -/

namespace Sys2Proof.Machine
open Sys2Proof

/-! ## Abort codes of the dictionary (16 Table 16-10) -/

def abNoEntry : Nat := 1
def abNoSub : Nat := 2
def abReadOnly : Nat := 3
def abWriteOnly : Nat := 4
def abNotPreop : Nat := 5
def abRange : Nat := 6
def abLength : Nat := 7
def abRefused : Nat := 8
def abNoAccess : Nat := 9
def abState : Nat := 10
def abBusy : Nat := 11
def abFlash : Nat := 12
def abSequence : Nat := 13
def abNoOpcode : Nat := 14

/-! ## HANK_OWN (05 Table 5-5) -/

/-- HANK_OWN as it reads. -/
def Hank.ownWord (h : Hank) : Nat :=
  h.owner.toNat + h.fabhoop.toNat * 2 ^ 8 + b2n h.faben * 2 ^ 12 + b2n h.scrub * 2 ^ 13 + b2n h.scrubNow * 2 ^ 14 +
    b2n h.pendBit * 2 ^ 24 + b2n h.scrubbing * 2 ^ 25 + b2n h.busyerr * 2 ^ 26 + b2n h.limerr * 2 ^ 27

def Hank.pwrWord (h : Hank) : Nat := h.req.toNat + powerCode h.power * 2 ^ 4

def Hank.ueWord (h : Hank) : Nat := h.ueCount + h.ueRow * 2 ^ 16 + h.ueBgroup * 2 ^ 27 + h.ueBank * 2 ^ 30

/-- The fabric hoop a hank names, with a waiting change counted as made. -/
def Hank.names (h : Hank) : Option Nat :=
  match h.pend with
  | some p => if p.faben then some p.fabhoop.toNat else none
  | none => if h.faben then some h.fabhoop.toNat else none

/-- Hank n may name fabric hoop x (R200): at most 8 hanks name one hoop, and at most 16 of one die a hoop of the other. -/
def State.fabricOk (s : State) (n x : Nat) : Bool :=
  let others := (List.range 64).filter fun m => m ≠ n
  let named (m : Nat) : Option Nat := (s.hank m).names
  let die (h : Nat) : Nat := h / 8
  decide ((others.filter fun m => named m = some x).length < 8) &&
    (die (hoopOfHank n) = die x ||
      decide ((others.filter fun m => die (hoopOfHank m) = die (hoopOfHank n) &&
        (match named m with | some y => die y ≠ die (hoopOfHank n) | none => false)).length < 16))

/-- A scrub's writes: the hank reads zero, and the fields of the last uncorrectable error clear (R182). -/
def State.zeroHank (s : State) (n : Nat) : State :=
  let s := s.zeroRange (hankBase n) 0x400000
  s.setHank n { s.hank n with ueRow := 0, ueBgroup := 0, ueBank := 0 }

/-- Level 2 source HANK_EVT of the hank's hoop (12 Table 12-9). -/
def State.hankEvent (s : State) (n : Nat) : State := s.l2Event (80 + hoopOfHank n)

/-- A write of HANK_OWN (R180, R200). A handover that meets a running test of the hank is refused (17 R508, R512). -/
def State.writeHankOwn (s : State) (n v : Nat) : State :=
  let h := s.hank n
  let owner := if 18 ≤ fld v 0 5 && fld v 0 5 ≤ 30 then h.owner.toNat else fld v 0 5
  let fab := if fld v 8 4 = hoopOfHank n then h.fabhoop.toNat else fld v 8 4
  let en := bitOf v 12
  let now := bitOf v 14
  let changes := owner ≠ h.owner.toNat || fab ≠ h.fabhoop.toNat || en ≠ h.faben
  let h1 : Hank := { h with busyerr := h.busyerr && !bitOf v 26, limerr := h.limerr && !bitOf v 27 }
  if h.pendBit then
    if !changes && !now && bitOf v 13 ≠ h.scrub then s.setHank n { h1 with scrub := bitOf v 13 }
    else s.setHank n { h with busyerr := true }
  else if changes || now then
    if s.testing 1 n then s.setHank n { h1 with busyerr := true }
    else if en && (fab ≠ h.fabhoop.toNat || !h.faben) && !s.fabricOk n fab then s.setHank n { h with limerr := true }
    else
      let p : Handover := { owner := BitVec.ofNat 5 owner, fabhoop := BitVec.ofNat 4 fab, faben := en, now := now }
      s.setHank n { h1 with pend := some p, scrub := bitOf v 13, scrubNow := now }
  else s.setHank n { h1 with scrub := bitOf v 13 }

/-- Whether an owner is a partition in mode M4. -/
def State.sealedOwner (s : State) (o : Nat) : Bool := decide (o < 16) && (s.part o).mode = 4

/-- Whose power state a hank follows when a handover or its scrub has ended (07 R263): it is in retention under a partition
in M0 and on under one in another mode (Table 7-3). -/
def State.followOwner (s : State) (n : Nat) : State :=
  let h := s.hank n
  let x := s.part h.owner.toNat
  if 16 ≤ h.owner.toNat || h.pendBit then s
  else if (if x.pend && x.phase = 4 then x.target else x.mode) = 0 then (if h.power = .on then s.writeHankPwr n 1 else s)
  else if h.power = .ret || h.power = .off then s.writeHankPwr n 0
  else s

/-- The boundary of a handover (R181, R182). -/
def State.handoverBoundary (s : State) (n : Nat) : State :=
  let h := s.hank n
  match h.pend with
  | none => s
  | some p =>
    let due := h.scrub || p.now || s.sealedOwner h.owner.toNat || s.sealedOwner p.owner.toNat
    let h1 : Hank := { h with owner := p.owner, fabhoop := p.fabhoop, faben := p.faben, pend := none }
    if !due || h.power = .off then ((s.setHank n ({ h1 with scrubNow := false }).pendDone).hankEvent n).followOwner n
    else if h.power = .on then (s.setHank n { h1 with scrubbing := true }).hankEvent n
    else (s.setHank n ({ h1 with heldScrub := true }).pendDone).hankEvent n

/-- A held scrub starts once the hank is on (R182). -/
def State.heldScrubStart (s : State) (n : Nat) : State :=
  let h := s.hank n
  if h.heldScrub && h.power = .on then s.setHank n { h with heldScrub := false, scrubbing := true } else s

/-- A scrub has ended (R182, Table 5-7): the new owner is served; after the scrub out of off the hank is on, or has
retention before it. -/
def Hank.scrubDone (h : Hank) : Hank :=
  match h.power with
  | .moving _ t => ({ h with scrubbing := false, power := if t = 0 then .on else .moving 0 t }).pendDone
  | _ => ({ h with scrubbing := false, scrubNow := false }).pendDone

/-- A scrub ends (R182): the hank reads zero. -/
def State.scrubEnd (s : State) (n : Nat) : State :=
  if (s.hank n).scrubbing then
    let s := s.zeroHank n
    ((s.setHank n (s.hank n).scrubDone).hankEvent n).followOwner n
  else s

/-- A timed part of a power transition ends (Table 5-7, R184). Out of off it is the ramp, and the scrub begins, which
scrubEnd ends; otherwise the state is reached: off loses the contents and drops a held scrub, and a replaced request goes
on. -/
def State.powerEnd (s : State) (n : Nat) : State :=
  let h := s.hank n
  match h.power with
  | .moving f t =>
    if f = 2 && t ≠ 2 then s.setHank n { h with scrubbing := true }
    else
      let s := if t = 2 then s.zeroRange (hankBase n) 0x400000 else s
      let h := { h with power := powerOf t }
      let h := if t = 2 && h.heldScrub then { h with heldScrub := false, scrubNow := false } else h
      s.setHank n h.pendDone
  | _ => s

/-! ## HBM controllers (R192, R196, R199) -/

/-- An octet that a record may reserve (Table 5-9). -/
def reservable (j : Nat) : Bool := j % 4 ≠ 3 && j % 16 ≠ 13

/-- The ring positions of the output units of partition p that wait for Throughput service (07 R259). -/
def State.traceBlocks (s : State) (p : Nat) : List Nat :=
  let x := s.part p
  (s.traceOut.filter fun u => u.part = p).zipIdx.map fun u => (x.trBase + 256 * ((x.trWr + u.2) % x.trUnits.toNat)) / 256

/-- Requests outstanding on a pseudo-channel of stack k whose bit is set in w (R199): those in the spindles' entries, the trace
units that wait for an entry, and the output units. -/
def State.pcBusy (s : State) (k w : Nat) : Bool :=
  let here (b : Nat) : Bool := (b % 128) / 32 = k && bitOf w (b % 32)
  s.hbmReqs.any (fun e => e.2.any fun (r : HbmReq) => here r.block) ||
    s.disps.any (fun e => e.2.traceq.any fun u => here (u.2.1 / 256)) ||
    (List.range 16).any fun p => (s.traceBlocks p).any here

/-- The boundary of stack k's frame: a waiting copy, a pattern switch and a retirement take effect (R196, R209). A retirement
waits for the requests outstanding on its pseudo-channels. -/
def State.hbmBoundary (s : State) (k : Nat) : State :=
  let x := s.stack k
  let rsv := if x.swap then
      s.rsv.filterMap fun e =>
        if e.1 / 128 / 32 = k then
          let v : BitVec 16 := BitVec.ofNat 16 (fld e.2.toNat 0 8 * 257)
          if v = 0 then none else some (e.1, v)
        else some e
    else s.rsv
  let s1 := { s with rsv := rsv }
  let s2 := match x.switch with
    | some h => if h = x.hot then s1 else s1.l2Event (8 + k)
    | none => s1
  let done := match x.retire with
    | some w => if s.pcBusy k (w.toNat ^^^ x.retired.toNat) then none else some w
    | none => none
  s2.setStack k { x with
    hot := x.switch.getD x.hot
    swap := false
    switch := none
    retired := done.getD x.retired
    retire := if done.isSome then none else x.retire }

/-- A temperature read-out (R192). -/
def State.hbmTemp (s : State) (k : Nat) (t : Byte) : State :=
  let x := s.stack k
  let c := sextNat 8 t.toNat
  let sw := if 85 ≤ c then (if x.hot then none else some true)
    else if c ≤ 80 then (if x.hot then some false else none)
    else x.switch
  s.setStack k { x with temp := t, switch := sw }

def State.setSwap (s : State) (k : Nat) : State := s.setStack k { s.stack k with swap := true }

/-- RSV_OCT of octet j of pseudo-channel pc. -/
def State.rsvWord (s : State) (pc j : Nat) : BitVec 16 := tabGet 0 s.rsv (128 * pc + j)

/-- A write of a shadow byte: VALID on an octet that is not reservable is a reserved value (R196). -/
def State.setShadow (s : State) (pc j v : Nat) : State :=
  if bitOf v 7 && !reservable j then s
  else { s with rsv := tabSet 0 s.rsv (128 * pc + j) (bvSet (s.rsvWord pc j) 0 8 v) }

/-! ## Reservation records (R197, R198) -/

def State.recMask (s : State) (i : Nat) : Nat := s.dget (0x3200 + i) 5 + s.dget (0x3200 + i) 6 * 2 ^ 64

/-- The pseudo-channels of record i. -/
def State.recPcs (s : State) (i : Nat) : List Nat :=
  (List.range 128).filter fun pc => s.dget (0x3200 + i) 3 ≤ pc && pc ≤ s.dget (0x3200 + i) 4

/-- Pseudo-channel pc is retired, or waits for its retirement. -/
def State.pcOut (s : State) (pc : Nat) : Bool :=
  bitOf (s.stack (pc / 32)).retired.toNat (pc % 32) ||
    (match (s.stack (pc / 32)).retire with | some w => bitOf w.toNat (pc % 32) | none => false)

/-- Another enabled record reserves one of record i's octets on one of its pseudo-channels. -/
def State.recOverlap (s : State) (i : Nat) : Bool :=
  s.enabledRecs.any fun m =>
    m ≠ i && s.recMask m &&& s.recMask i ≠ 0 && (s.recPcs m).any fun pc => (s.recPcs i).contains pc

/-- The octets of a mask. -/
def octets (mask : Nat) : List Nat := (List.range 128).filter fun j => bitOf mask j

/-- Apply record i to the shadows and set SWAP on each stack of its range. -/
def State.applyRecord (s : State) (i : Nat) (on : Bool) : State :=
  let v := if on then s.dget (0x3200 + i) 2 + 128 else 0
  let pcs := s.recPcs i
  let s := pcs.foldl (fun s pc => (octets (s.recMask i)).foldl (fun s j => s.setShadow pc j v) s) s
  (pcs.map fun pc => pc / 32).eraseDups.foldl State.setSwap s

/-- A stream not FREE of the record's partition and spindle would fail R70 without the record. -/
def State.recNeeded (s : State) (i : Nat) : Bool :=
  let p := s.dget (0x3200 + i) 1
  let k := s.dget (0x3200 + i) 2
  let m5 := (s.part p).mode = 5
  let off := s.dset (0x3200 + i) 7 0
  s.liveCtxs.any fun e =>
    ctxPart e.2 = p && ctxSpindle e.2 = k &&
      (off.hbmFail p k (s.prick (ctxPrick e.2)) m5).isSome

/-- The rules of R198 on a write of v to sub-index sub of record i: an abort code, or 0 and the state after. -/
def State.recordRule (s : State) (i sub v : Nat) : Nat × State :=
  let on := s.dget (0x3200 + i) 7 = 1
  if sub = 7 then
    if (v = 1) = on then (0, s)
    else if v = 1 then
      let pcs := s.recPcs i
      if s.partOf (s.dget (0x3200 + i) 2) ≠ some (s.dget (0x3200 + i) 1) || (octets (s.recMask i)).any (fun j => !reservable j) ||
          pcs.any s.pcOut || s.recOverlap i then (abRefused, s)
      else (0, (s.dset (0x3200 + i) 7 1).applyRecord i true)
    else if s.recNeeded i then (abRefused, s)
    else (0, (s.applyRecord i false).dset (0x3200 + i) 7 0)
  else if sub = 3 && s.dget (0x3200 + i) 4 < v then (abRange, s)
  else if sub = 4 && v < s.dget (0x3200 + i) 3 then (abRange, s)
  else if on then (abRefused, s)
  else (0, s.dset (0x3200 + i) sub v)

/-- A write of PC_RETIRED_LO (hi = false) or HI (R199): refused where an enabled record includes a pseudo-channel that
changes; HBM_RETIRE follows at the frame boundaries. -/
def State.retireRule (s : State) (hi : Bool) (v : Nat) : Nat × State :=
  let base := if hi then 64 else 0
  let sub := if hi then 2 else 1
  let diff := s.dget 0x32FF sub ^^^ v
  let changed := (List.range 64).filter fun j => bitOf diff j
  if changed.any fun j => s.enabledRecs.any fun i => (s.recPcs i).contains (base + j) then (abRefused, s)
  else
    let s := s.dset 0x32FF sub v
    let half (s : State) (k w : Nat) : State :=
      let x := s.stack k
      if BitVec.ofNat 32 w = x.retired then s.setStack k { x with retire := none }
      else s.setStack k { x with retire := some (BitVec.ofNat 32 w) }
    (0, half (half s (base / 32) (fld v 0 32)) (base / 32 + 1) (fld v 32 32))

/-! ## Hank ownership entries (R185) -/

/-- A stream not FREE of the present owner has hank n in its hank mask. -/
def State.hankInUse (s : State) (n : Nat) : Bool :=
  let o := (s.hank n).owner.toNat
  s.liveCtxs.any fun e => ctxPart e.2 = o && bitOf (prHankMask (s.prick (ctxPrick e.2))) n


/-- The rule of R185 on a write of sub-index 1 to 3 of hank n: an abort code, or 0 and the state after. -/
def State.hankRule (s : State) (n sub v : Nat) : Nat × State :=
  let h := s.hank n
  let own := if sub = 1 then v else h.owner.toNat
  let fab := if sub = 2 && v ≠ 255 then v else h.fabhoop.toNat
  let en := if sub = 2 then decide (v ≠ 255) else h.faben
  let scrub := if sub = 3 then decide (v = 1) else h.scrub
  let w := own + fab * 2 ^ 8 + b2n en * 2 ^ 12 + b2n scrub * 2 ^ 13
  if sub = 1 && 18 ≤ v && v ≤ 30 then (abRange, s)
  else if sub = 2 && ((16 ≤ v && v ≠ 255) || v = hoopOfHank n) then (abRange, s)
  else if h.pend.isSome || h.pendBit || (sub ≠ 3 && s.testing 1 n) then (abBusy, s)
  else if s.hankInUse n || (sub = 2 && en && (fab ≠ h.fabhoop.toNat || !h.faben) && !s.fabricOk n fab) then (abRefused, s)
  else (0, (s.writeHankOwn n w).dset (0x3100 + n) sub v)

/-! ## Granules (07 R241, R256; 17 R489) -/

def State.setSeal (s : State) (g : Nat) (b : Bool) : State :=
  if g < 1535 then { s with rst := { s.rst with granSeal := tabSet false s.rst.granSeal g b } } else s

/-- Set GRAN_OWN.OWNER and ZEROING of granule g. -/
def State.setGran (s : State) (g owner : Nat) (zeroing : Bool) : State :=
  { s with granOwn := tabSet 0x1F s.granOwn g (BitVec.ofNat 6 (owner % 32 + b2n zeroing * 32)) }

/-- A write of GRAN_OWN: ignored for granule 1,535 and while ZEROING is 1; owners 16 to 30 are reserved. A change to or from
a partition in M4 zeroes first. -/
def State.granWrite (s : State) (g v : Nat) : State :=
  let o := fld v 0 5
  let old := s.granOwner g
  if g = 1535 || s.granZeroing g || (16 ≤ o && o ≤ 30) || o = old then s
  else if s.sealedOwner old || s.sealedOwner o then
    { s.setGran g old true with granNext := tabSet none s.granNext g (some (BitVec.ofNat 5 o)) }
  else s.setGran g o false

/-- Start zeroing granule g without a change of owner (R256). -/
def State.granZero (s : State) (g : Nat) : State :=
  if s.granZeroing g then s else s.setGran g (s.granOwner g) true

/-- Zeroing of granule g ends (R256): its bytes read 0, a waiting owner takes it, ZEROING clears, and so does GRAN_SEAL
unless the granule is now assigned to a partition in M4 that is not leaving it (R489). -/
def State.granZeroEnd (s : State) (g : Nat) : State :=
  if !s.granZeroing g then s
  else
    let o := match tabGet none s.granNext g with
      | some x => x.toNat
      | none => s.granOwner g
    let s := s.zeroRange (g * 2 ^ 26) (2 ^ 26)
    let keep := s.sealedOwner o && !((s.part o).pend && (s.part o).phase = 2)
    let s := ({ s with granNext := tabSet none s.granNext g none }).setGran g o false
    s.setSeal g keep

/-! ## Locks (R207) -/

def State.lockState (s : State) (t : LockTarget) : LockState :=
  tabGet {} s.locks (match t with | .contextStore => 0 | .poolView => 1)

def State.setLock (s : State) (t : LockTarget) (x : LockState) : State :=
  { s with locks := tabSet {} s.locks (match t with | .contextStore => 0 | .poolView => 1) x }

/-- Cycles (CORE) after its start at which a lock ends, and after its end for which the target accepts none. -/
def lockLimit : Nat := 128
def lockGap : Nat := 40

/-- The lock that holds a target: one ends at its 128 cycles. -/
def State.lockHolder (s : State) (t : LockTarget) : Option MatrixLock :=
  match (s.lockState t).held with
  | some l => if s.clock.u ≤ l.start + lockLimit then some l else none
  | none => none

/-- A lock that has reached its 128 cycles ends before its last beat: its remaining beats receive a lock-break response. -/
def State.endLock (s : State) (t : LockTarget) : State :=
  match (s.lockState t).held with
  | some l =>
    if l.start + lockLimit ≤ s.clock.u then
      s.setLock t { held := none, ended := some (l.start + lockLimit),
                    broken := (l.master, l.left) :: (s.lockState t).broken.filter fun b => b.1 ≠ l.master }
    else s
  | none => s

/-! ## The commands -/

def execHandover (h : HankId) (v : Word) (s : State) : Host.Outcome State Fault Refusal :=
  .next (s.writeHankOwn h.toNat v.toNat)

/-- HANK_OWN written as it stands but for SCRUB. -/
def execScrubFlagWrite (h : HankId) (v : Word) (s : State) : Host.Outcome State Fault Refusal :=
  let x := s.hank h.toNat
  .next (s.writeHankOwn h.toNat
    (x.owner.toNat + x.fabhoop.toNat * 2 ^ 8 + b2n x.faben * 2 ^ 12 + b2n (bitOf v.toNat 13) * 2 ^ 13))

/-- HANK_OWN written as it stands with SCRUBNOW = 1. -/
def execScrubNow (h : HankId) (s : State) : Host.Outcome State Fault Refusal :=
  let x := s.hank h.toNat
  .next (s.writeHankOwn h.toNat
    (x.owner.toNat + x.fabhoop.toNat * 2 ^ 8 + b2n x.faben * 2 ^ 12 + b2n x.scrub * 2 ^ 13 + 2 ^ 14))

def execHandoverBoundary (h : HankId) (s : State) : Host.Outcome State Fault Refusal := .next (s.handoverBoundary h.toNat)

def execHeldScrubStart (h : HankId) (s : State) : Host.Outcome State Fault Refusal := .next (s.heldScrubStart h.toNat)

def execScrubEnd (h : HankId) (s : State) : Host.Outcome State Fault Refusal := .next (s.scrubEnd h.toNat)

def execHankPwr (h : HankId) (req : BitVec 2) (s : State) : Host.Outcome State Fault Refusal :=
  .next (s.writeHankPwr h.toNat req)

def execHankPowerTransitionEnd (h : HankId) (s : State) : Host.Outcome State Fault Refusal := .next (s.powerEnd h.toNat)

def execHbmFrameBoundary (k : StackId) (s : State) : Host.Outcome State Fault Refusal := .next (s.hbmBoundary k.toNat)

def execHbmTempRead (k : StackId) (temp : Byte) (s : State) : Host.Outcome State Fault Refusal :=
  .next (s.hbmTemp k.toNat temp)

def execSwap (k : StackId) (s : State) : Host.Outcome State Fault Refusal := .next (s.setSwap k.toNat)

def execGranOwn (g : GranId) (v : Word) (s : State) : Host.Outcome State Fault Refusal := .next (s.granWrite g.val v.toNat)

def execGranuleZeroingEnd (g : GranId) (s : State) : Host.Outcome State Fault Refusal := .next (s.granZeroEnd g.val)

def execLockBreak (t : LockTarget) (s : State) : Host.Outcome State Fault Refusal := .next (s.endLock t)

end Sys2Proof.Machine
end

