-- ==== Sys2Proof/Machine/Time.lean ====
section
/-! DEFINITION. The timebase, PPS and SyncE (14 R405 to R413) and the partition timer blocks (R417 to R425). -/

namespace Sys2Proof.Machine
open Sys2Proof

/-! ## Timer blocks -/

def State.tblock (s : State) (p : Nat) : TimerBlock := tabGet {} s.timers p
def State.setTblock (s : State) (p : Nat) (b : TimerBlock) : State := { s with timers := tabSet {} s.timers p b }
def TimerBlock.chan (b : TimerBlock) (n : Nat) : Timer := tabGet {} b.ch n
def TimerBlock.setChan (b : TimerBlock) (n : Nat) (t : Timer) : TimerBlock := { b with ch := tabSet {} b.ch n t }

/-- The count after a tick, the active period, and whether the tick is a ZERO event (R418). -/
def Timer.count (t : Timer) : Word × Word × Bool :=
  if t.down then
    if t.cnt = 0 then (t.reload, t.reload, false) else (t.cnt - 1, t.top, t.cnt = 1)
  else if t.cnt = t.top || t.cnt = 0xFFFFFFFF then (0, t.reload, true)
  else (t.cnt + 1, t.top, false)

/-- CMP after a match with AUTOADD: INT further in the counting direction, modulo TOP + 1 (R419). -/
def Timer.nextCmp (t : Timer) (top : Word) : Word :=
  let m : Int := Int.ofNat top.toNat + 1
  let c := Int.ofNat t.cmp.toNat
  let i := Int.ofNat t.intv.toNat
  BitVec.ofNat 32 ((if t.down then c - i else c + i).emod m).toNat

/-- One tick: the channel after it, whether it raises TIMERn, and whether it carries to channel n + 1. -/
def Timer.tick (t : Timer) : Timer × Bool × Bool :=
  let r := t.count
  let mat := r.1 ≠ t.cnt && r.1 = t.cmp && decide (t.cmp.toNat ≤ r.2.1.toNat)
  let t' := { t with
    cnt := r.1
    top := r.2.1
    cmp := if mat && t.autoadd then t.nextCmp r.2.1 else t.cmp
    matched := t.matched || (mat && t.imatch)
    zero := t.zero || (r.2.2 && t.izero) }
  (t', (mat && t.imatch) || (r.2.2 && t.izero), r.2.2)

/-- Raise TIMERn where TM_ROUTE sends it (R421): spindles of the partition's mask only. -/
def State.raiseTimer (s : State) (p n : Nat) (t : Timer) : State :=
  let ks := if t.all then (List.range 128).filter fun k => s.partOf k = some p
    else if s.partOf t.route.toNat = some p then [t.route.toNat] else []
  ks.foldl (fun s k => s.l1EventAt k (16 + n)) s

/-- CNT was written, or IMMEDIATE given, in TIME cycle d or after it: a tick or carry of that cycle is lost (Table 14-5, R420). -/
def Timer.lost (t : Timer) (d : Nat) : Bool :=
  match t.held with
  | some h => decide (d ≤ h)
  | none => false

/-- A tick of channel n in TIME cycle d and the carries that follow it in the same cycle, over f channels at most. A channel that
does not count, or whose CNT is written in that cycle, loses it (R417, Table 14-5). -/
def State.timerTick (s : State) (p n d : Nat) : Nat → State
  | 0 => s
  | f + 1 =>
    let t := (s.tblock p).chan n
    if !t.en || t.lost d then s
    else
      let r := t.tick
      let s := s.setTblock p ((s.tblock p).setChan n r.1)
      let s := if r.2.1 then s.raiseTimer p n r.1 else s
      if r.2.2 && n < 15 && ((s.tblock p).chan (n + 1)).chain then s.timerTick p (n + 1) d f else s

/-- The TIME cycle of the channel's next own tick: ticks stand every 2^PRESCALE cycles from the start on (R417). -/
def Timer.next (t : Timer) : Nat := t.origin + ((t.last - t.origin) / 2 ^ t.prescale.toNat + 1) * 2 ^ t.prescale.toNat

/-- A channel's own tick is due: its TIME cycle is reached; a chained channel ticks on the carries it receives (R417). -/
def Timer.due (t : Timer) (cycle : Nat) : Bool := t.en && !t.chain && decide (t.next ≤ cycle)

/-- The own tick of channel n that stands in TIME cycle d. -/
def State.timerRun (s : State) (p n d : Nat) : State :=
  (s.setTblock p ((s.tblock p).setChan n { (s.tblock p).chan n with last := d, fell := false })).timerTick p n d 16

/-- TIMER_TICK of a channel whose tick is due: the tick of an earlier cycle has its effect; one of the present cycle falls at its
end, after the cycle's writes (Table 14-5). Before a tick is due the command changes nothing (DESIGN CHOICE, log entry 22). -/
def State.timerOwnTick (s : State) (p n : Nat) : State :=
  let t := (s.tblock p).chan n
  if !t.due s.clock.cycles then s
  else if t.next < s.clock.cycles then s.timerRun p n t.next
  else s.setTblock p ((s.tblock p).setChan n { t with fell := true })

/-- The end of a TIME cycle: the ticks that fell in it and that its writes did not take away (Table 14-5). -/
def State.timersFall (s : State) : State :=
  s.timers.foldl (fun s e => e.2.ch.foldl (fun s c =>
    let t := (s.tblock e.1).chan c.1
    if !t.fell then s
    else if t.due s.clock.cycles then s.timerRun e.1 c.1 t.next
    else s.setTblock e.1 ((s.tblock e.1).setChan c.1 { t with fell := false })) s) s

def execTimerTick (p n : PartId) (s : State) : Host.Outcome State Fault Refusal := .next (s.timerOwnTick p.toNat n.toNat)

/-- IMMEDIATE (R420) in a TIME cycle: it takes the place of that cycle's tick. -/
def Timer.apply (t : Timer) (cycle : Nat) : Timer :=
  { t with cnt := if t.down then t.reload else 0, top := t.reload, held := some cycle }

def State.timerImmediate (s : State) (p n : Nat) : State :=
  s.setTblock p ((s.tblock p).setChan n (((s.tblock p).chan n).apply s.clock.cycles))

def execImmediate (p n : PartId) (v : Word) (s : State) : Host.Outcome State Fault Refusal :=
  .next (if v.getLsbD 0 then s.timerImmediate p.toNat n.toNat else s)

def State.timerCount (s : State) (p n : Nat) (v : Word) : State :=
  s.setTblock p ((s.tblock p).setChan n { (s.tblock p).chan n with cnt := v, held := some s.clock.cycles })

def execTmCnt (p n : PartId) (v : Word) (s : State) : Host.Outcome State Fault Refusal :=
  .next (s.timerCount p.toNat n.toNat v)

/-- A channel starts in a TIME cycle (R422). -/
def Timer.start (t : Timer) (cycle : Nat) : Timer :=
  { t with cnt := t.phase, top := t.reload, en := true, wait := false, origin := cycle, last := cycle, fell := false, begun := some cycle }

/-- Start the channels of a mask. -/
def TimerBlock.startMask (b : TimerBlock) (mask cycle : Nat) : TimerBlock :=
  (List.range 16).foldl (fun b n => if bitOf mask n then b.setChan n ((b.chan n).start cycle) else b) b

/-- Channels that wait for TMB_AT. -/
def TimerBlock.waiting (b : TimerBlock) : Nat := (List.range 16).foldl (fun m n => if (b.chan n).wait then m + 2 ^ n else m) 0

/-- The waiting set becomes mask. -/
def TimerBlock.setWaiting (b : TimerBlock) (mask : Nat) : TimerBlock :=
  (List.range 16).foldl (fun b n => if (b.chan n).wait = bitOf mask n then b else b.setChan n { b.chan n with wait := bitOf mask n }) b

/-- TB equals TMB_AT: the waiting channels start. -/
def State.timerReached (s : State) (p : Nat) : State :=
  let b := s.tblock p
  if b.waiting ≠ 0 && b.at_.toNat = s.now then s.setTblock p (b.startMask b.waiting s.clock.cycles) else s

/-- Every partition whose TMB_AT TB equals in this cycle. -/
def State.timersReach (s : State) : State := s.timers.foldl (fun s e => s.timerReached e.1) s

/-- A write of TMB_START (R422): it replaces a start that waits; one whose TB is reached in this cycle applies first (Table
14-5). -/
def State.timerStart (s : State) (p v : Nat) : State :=
  let s := s.timerReached p
  let b := (s.tblock p).setWaiting 0
  let mask := fld v 0 16
  let at_ := b.at_.toNat
  if !bitOf v 16 || at_ = s.now then s.setTblock p (b.startMask mask s.clock.cycles)
  else if at_ < s.now then s.setTblock p { b.startMask mask s.clock.cycles with late := true }
  else s.setTblock p (b.setWaiting mask)

def execTmbStart (p : PartId) (v : Word) (s : State) : Host.Outcome State Fault Refusal :=
  .next (s.timerStart p.toNat v.toNat)

def execTmbAtReached (p : PartId) (s : State) : Host.Outcome State Fault Refusal := .next (s.timerReached p.toNat)

/-! ## Frequency, slew and step -/

/-- A write of TB_FREQ: values beyond ±200 ppm are reserved (R407). -/
def State.writeFreq (s : State) (v : Word) : State :=
  let x := v.toInt
  if -204800000 ≤ x && x ≤ 204800000 then { s with time := { s.time with freq := v } } else s

def execTbFreq (v : Word) (s : State) : Host.Outcome State Fault Refusal := .next (s.writeFreq v)

/-- A write of TB_SLEW (R408): a new remainder, or the end of the slew. -/
def State.writeSlew (s : State) (v : Word) : State :=
  { s with time := { s.time with slew := v.toInt, slewing := v ≠ 0, slewPart := 0 } }

def execTbSlew (v : Word) (s : State) : Host.Outcome State Fault Refusal := .next (s.writeSlew v)

/-- The slew ends once nothing of it is left. -/
def execSlewEnd (s : State) : Host.Outcome State Fault Refusal :=
  .next (if s.time.slew = 0 then { s with time := { s.time with slewing := false } } else s)

/-- A write of 1 to TB_CTL.STEP: TB takes the step value in the next TIME cycle (R409). -/
def State.stepTime (s : State) : State := { s with time := { s.time with stepping := true } }

/-- TB in the next TIME cycle. -/
def Timebase.next (t : Timebase) : DWord := if t.stepping then t.setHi ++ t.setLo else t.tb + 1

/-- A step has moved TB from old (R410): waiting timer channels whose start value it jumped past start with LATE. -/
def State.stepPast (s : State) (old : Nat) : State :=
  s.timers.foldl (fun s e =>
    let b := s.tblock e.1
    if b.waiting ≠ 0 && decide (old < b.at_.toNat) && decide (b.at_.toNat < s.now) then
      s.setTblock e.1 { b.startMask b.waiting s.clock.cycles with late := true }
    else s) s

/-! ## PPS (R411, R412) -/

/-- A level on PPS_IN: an edge of the chosen polarity captures TB unless it follows a captured one by less than 100 ns. -/
def State.ppsEdge (s : State) (level : Bool) : State :=
  let t := s.time
  let edge := level ≠ t.ppsIn && level ≠ t.inpol
  let soon : Bool := match t.lastEdge with
    | some x => decide (s.clock.cycles < x + 100)
    | none => false
  let s := { s with time := { t with ppsIn := level } }
  if t.inen && edge && !soon then
    ({ s with time := { s.time with cap := t.tb, seq := t.seq + 1, lastEdge := some s.clock.cycles } }).l2Event 27
  else s

def execPpsIn (level : Bool) (s : State) : Host.Outcome State Fault Refusal := .next (s.ppsEdge level)

def execPpsOutRise (s : State) : Host.Outcome State Fault Refusal :=
  .next (if s.time.outen && s.now % 1000000000 = s.time.off then { s with time := { s.time with ppsOut := true, riseAt := s.clock.cycles } } else s)

/-- PPS_OUT falls PPS_W ns after its rise. -/
def execPpsOutFall (s : State) : Host.Outcome State Fault Refusal :=
  .next (if s.time.ppsOut && decide (s.time.riseAt + s.time.width ≤ s.clock.cycles) then { s with time := { s.time with ppsOut := false } } else s)

end Sys2Proof.Machine
end

