-- ==== Sys2Proof/Machine/Partitions.lean ====
section
/-! DEFINITION. Partitions and modes (07): mode requests and transitions (R245 to R247, R264), the partition entries (R243),
pattern cards (R249 to R253), replay requests (R260); the adaptation frame boundary (02 R97 to R101), power of positions
(17 R494, Table 17-2) and spare replacement (17 R509). -/

namespace Sys2Proof.Machine
open Sys2Proof

/-! ## Positions of a partition -/

/-- Spindles of the masks of partition p that have a position. -/
def State.partPositions (s : State) (p : Nat) : List Nat := (s.inService p).map s.posOf

/-! ## Tests of a mode request (R246, Table 7-4) -/

def mcStreams : Nat := 1
def mcFlags : Nat := 2
def mcPorts : Nat := 3
def mcTrace : Nat := 4
def mcBusy : Nat := 5
def mcNode : Nat := 6

/-- The partition whose queues a watermark group holds (06 R229). -/
def State.wmPart (s : State) (g : Nat) : Option Nat :=
  (s.qe.queues.find? fun e => e.2.wmen && e.2.wmg.toNat = g && e.2.state ≠ .free).map fun e => e.2.owner.toNat

/-- An FCO pin driven by a group of partition p is also driven by a group of another partition. -/
def State.fcoShared (s : State) (p : Nat) : Bool :=
  s.qe.wm.any fun a => s.qe.wm.any fun b =>
    a.2.fcoen && b.2.fcoen && a.2.fcopin = b.2.fcopin && s.wmPart a.1 = some p &&
      (match s.wmPart b.1 with | some q => q ≠ p | none => false)

/-- The granules of partition p's range. -/
def State.granRange (s : State) (p : Nat) : List Nat :=
  (List.range (s.dget (0x3000 + p) 9)).map fun i => s.dget (0x3000 + p) 8 + i

/-- The Trace ring lies wholly inside the partition's granules. -/
def State.ringInside (s : State) (p : Nat) : Bool :=
  let x := s.part p
  let a := s.dget (0x3000 + p) 8 * 2 ^ 26
  decide (a ≤ x.trBase) && decide (x.trBase + 256 * x.trUnits.toNat ≤ a + s.dget (0x3000 + p) 9 * 2 ^ 26)

/-- Some spindle holds less than one octet on some pseudo-channel (R258). -/
def State.octetsMissing (s : State) (p : Nat) : Bool :=
  (List.range 128).any fun k => s.partOf k = some p && (List.range 128).any fun pc => s.octetsOf p k pc = 0

/-- The refusal code of a transition from x to y, or 0 (R246, Table 7-4). Of several conditions that fail, the first in the
table's order gives the code (DESIGN CHOICE: R246 states no order). -/
def State.modeTest (s : State) (p x y : Nat) : Nat :=
  let l := s.liveCtxs.filter fun e => ctxPart e.2 = p
  let egr := (s.part p).egr
  let share (q : Nat) : Bool := q ≠ p && (s.part q).egr &&& egr ≠ 0
  let qs := List.range 16
  if !l.isEmpty && !(x = 1 && y = 5) && !(x = 5 && y = 1) then mcStreams
  else if x = 1 && y = 5 && l.any (fun e => !prTr (s.prick (ctxPrick e.2))) then mcFlags
  else if (y = 4 && qs.any share) || (x ≠ 4 && qs.any fun q => share q && (s.part q).mode = 4) || (y = 4 && s.fcoShared p) then
    mcPorts
  else if y = 5 && ((s.part p).trUnits = 0 || !s.ringInside p || s.octetsMissing p) then mcTrace
  else 0

/-- The cases in which governor firmware steps TB (14 R409): the node is not OPERATIONAL, or no partition in M1, M2, M4 or M5 has a
stream or a pattern card in force. -/
def State.mayStep (s : State) : Bool :=
  let g (p : Nat) : Bool := (s.part p).mode.toNat ∈ [1, 2, 4, 5]
  s.node ≠ .operational ||
    (s.liveCtxs.all (fun e => !g (ctxPart e.2)) && (List.range 128).all fun k => !s.guaranteed k || (s.card k).card.isNone)

/-- The offset of TB to the step value. -/
def Timebase.lag (t : Timebase) : Int := ((t.setHi ++ t.setLo) - t.tb).toInt

/-- The offset to the step value as a signed 32-bit remainder of TB_SLEW, at its end where it lies beyond (DESIGN CHOICE, log entry
147). -/
def Timebase.offset (t : Timebase) : Word := BitVec.ofInt 32 (max (-2147483648) (min 2147483647 t.lag))

/-- STEP is governor firmware's correction of TB to the step value (R409): a write of TB_CTL.STEP where the rule admits a step and
the offset lies above STEP_THRESHOLD (R426), else a slew by the offset at the entry SLEW_RATE. The register itself obeys any
write (DESIGN CHOICE, log entry 147). -/
def execStepTb (s : State) : Host.Outcome State Fault Refusal :=
  let t := s.time
  .next (if s.mayStep && s.dget 0x7000 4 < t.lag.natAbs then s.stepTime
    else { s with time := { t with slewRate := BitVec.ofNat 8 (s.dget 0x7000 3) } }.writeSlew t.offset)

/-- Record a refusal code in PART_MODE. -/
def State.modeErr (s : State) (p code : Nat) : State :=
  s.setPart p { s.part p with errcode := BitVec.ofNat 4 code, err := true }

/-- The transition becomes the waiting one (R247). -/
def State.modeAccept (s : State) (p y : Nat) : State :=
  s.setPart p { s.part p with target := BitVec.ofNat 3 y, pend := true, phase := 1, since := s.now }

/-- A write of y to MODE_REQ (R245, R264): an abort code, or 0 and the state after. A forced move to M0 and a partition reset wait
for no frame boundary and are not ended: an accepted request is kept, and its transition follows them (R264, 17 R493). -/
def State.modeRule (s : State) (p y : Nat) : Nat × State :=
  let x := s.part p
  if s.node ≠ .operational && s.node ≠ .stopped then (0, (s.modeErr p mcNode).dset (0x3000 + p) 1 y)
  else if 2 ≤ x.phase.toNat then (abBusy, s.modeErr p mcBusy)
  else if y = x.mode.toNat then
    if x.forced || x.resetting then (0, (s.setPart p { x with errcode := 0 }).dset (0x3000 + p) 1 y)
    else (0, (s.setPart p { x with pend := false, phase := 0, target := BitVec.ofNat 3 y, errcode := 0 }).dset (0x3000 + p) 1 y)
  else
    let c := s.modeTest p x.mode.toNat y
    if c ≠ 0 then (abRefused, s.modeErr p c)
    else
      let s := if x.forced || x.resetting then s else s.modeAccept p y
      (0, (s.setPart p { s.part p with errcode := 0 }).dset (0x3000 + p) 1 y)

/-! ## Transition actions (Table 7-5) -/

def hanksOf (s : State) (p : Nat) : List Nat := (List.range 64).filter fun n => (s.hank n).owner.toNat = p

/-- Scrub hank n without a change of owner (R256): by SCRUBNOW, or by the handover that is pending. -/
def State.scrubHank (s : State) (n : Nat) : State :=
  let h := s.hank n
  let w := h.owner.toNat + h.fabhoop.toNat * 2 ^ 8 + b2n h.faben * 2 ^ 12
  if !h.pendBit then s.writeHankOwn n (w + b2n h.scrub * 2 ^ 13 + 2 ^ 14)
  else if h.pend.isSome then s.setHank n { h with scrub := true }
  else s

/-- Every queue of region p is flushed and its cells are freed (R256), a BROKEN one among them, whose OCC then reads 0 (DESIGN
CHOICE,
log entry 166: 06 R522 keeps its OCC, and M4 leaves no cell with contents). -/
def State.flushRegion (s : State) (p : Nat) : State :=
  s.qe.queues.foldl (fun s e => if e.2.owner.toNat = p && e.2.state ≠ .free then s.emptyQueue e.1 else s) s

/-- The stages a transition from x to y makes, in order, by their PHASE. -/
def stagesOf (x y : Nat) : List Nat :=
  (if (y = 0) ≠ (x = 0) then [4] else []) ++ (if x = 4 || y = 4 then [2] else []) ++
    (if (6 ≤ x) ≠ (6 ≤ y) then [3] else [])

/-- Begin a stage. -/
def State.stageStart (s : State) (p ph : Nat) : State :=
  let x := s.part p
  let y := x.target.toNat
  let s := s.setPart p { x with phase := BitVec.ofNat 3 ph }
  if ph = 4 then
    let s := (hanksOf s p).foldl (fun s n => s.writeHankPwr n (if y = 0 then 1 else 0)) s
    (s.partPositions p).foldl (fun s w => if y = 0 then s.posOff w else s.setPos w { st := 3 }) s
  else if ph = 2 then
    let hs := hanksOf s p
    let s := hs.foldl State.scrubHank s
    let s := (s.granRange p).foldl State.granZero s
    let s := (s.partPositions p).foldl State.zeroLocal (s.flushRegion p)
    s.setPart p { s.part p with scrubs := hs }
  else
    let r := s.region p
    let secded : Bool := decide (6 ≤ y)
    if s.regionUsed p = 0 then s.setRegion p { r with encreq := secded, enc := secded }
    else s.setRegion p { r with encreq := secded, scrubbing := true }

/-- The stage in progress has ended. -/
def State.stageDone (s : State) (p : Nat) : Bool :=
  let x := s.part p
  match x.phase.toNat with
  | 4 => (hanksOf s p).all fun n => powerCode (s.hank n).power ≠ 3
  | 2 => (x.scrubs.all fun n => !(s.hank n).pendBit) && (s.granRange p).all fun g => !s.granZeroing g
  | 3 => (s.region p).enc = (s.region p).encreq && !(s.region p).scrubbing
  | _ => false

/-! ## AUTO_OPEN (16 R479) -/

/-- Submit the templates with AUTO_OPEN = 1 whose partition sel names, in order, and write their results. -/
def State.submitTemplates (s : State) (sel : Nat → Bool) : State :=
  let js := s.dict.filterMap fun e =>
    if 0x4000 ≤ e.1 / 256 && e.1 / 256 ≤ 0x47FF && e.1 % 256 = 3 && e.2 = 1 then some (e.1 / 256) else none
  js.foldl (fun s j =>
    if !sel (s.dget j 1) then s
    else
      let l := s.dom j 2
      if l.isEmpty then s.dset j 4 cParameter
      else
        let r := s.anyReq (s.dget j 1) (BitVec.ofNat 512 (natOfBytes l))
        r.2.2.dset j 4 (r.1 + r.2.1 * 2 ^ 32)) s

def State.autoOpen (s : State) (p : Nat) : State := s.submitTemplates fun q => q = p

/-! ## Transitions (R247) -/

/-- The forced move of partition p to M0 (R247, R264, 17 R493): a waiting transition is dropped, one in progress ends
first. -/
def State.forceM0 (s : State) (p : Nat) : State :=
  let x := s.part p
  if 2 ≤ x.phase.toNat then s.setPart p { x with forced := true }
  else if x.mode = 0 then s.setPart p { x with pend := false, phase := 0, target := 0, forced := false }
  else s.setPart p { x with pend := true, phase := 0, target := 0, forced := true }

/-- The transition that MODE_REQ asks for on entry into OPERATIONAL and after a partition reset (R264, R493). -/
def State.requestStored (s : State) (p : Nat) : State :=
  let y := s.dget (0x3000 + p) 1
  let x := s.part p
  if y = 0 || x.mode ≠ 0 || x.pend then s
  else
    let c := s.modeTest p 0 y
    if c ≠ 0 then s.modeErr p c
    else
      let s := s.modeAccept p y
      s.setPart p { s.part p with errcode := 0 }

/-- The last step of a partition reset (17 R493 step 7), once the partition is in M0. -/
def State.resetDone (s : State) (p : Nat) : State :=
  let x := s.part p
  if x.resetting && !x.resetWork && x.mode = 0 && !x.pend then
    let s := s.setPart p { x with resetting := false }
    if s.node = .operational then s.requestStored p else s
  else s

/-- The fields that mode y forces in FCTL and VFCTL take their values on every spindle of partition p (10 R327, Table 10-4). -/
def State.forceFlush (s : State) (p y : Nat) : State :=
  let flush : Bool := y = 1 || y = 2 || y = 4 || y = 5
  let strap (v : DWord) : DWord := if y = 3 then v else bvSet v 4 1 0
  let both (v : DWord) : DWord := if flush then bvSet (bvSet v 4 1 0) 2 2 3 else v
  (s.inService p).foldl (fun s k =>
    let q := s.seqr k
    (s.modCpu k fun c => { c with fctl := both c.fctl }).setSeqr k { q with vfctl := both (strap q.vfctl) }) s

/-- The last action has ended: MODE takes the value Y, MODE_CHANGED is reported (R247); a partition that enters M4 marks its
granules (17 R489); a request kept over a forced move starts its transition (R264); templates follow when the partition has
reached its requested mode (16 R479). -/
def State.modeEnd (s : State) (p : Nat) : State :=
  let x := s.part p
  let y := x.target.toNat
  let more := x.forced && y ≠ 0
  let s := s.setPart p { x with
    mode := x.target, pend := more, phase := 0, scrubs := [], forced := more, target := if more then 0 else x.target }
  let s := (s.forceFlush p y).anqEvent p 8 y 0 0 0
  let s := if y = 4 then (s.granRange p).foldl (fun s g => s.setSeal g true) s else s
  let kept := x.forced && y = 0 && !x.resetting && s.node = .operational
  let s := if kept then s.requestStored p else s.resetDone p
  if s.node = .operational && y = s.dget (0x3000 + p) 1 && !more then s.autoOpen p else s

/-- Positions that were powering on are on when the stage ends. -/
def State.powerUp (s : State) (p : Nat) : State :=
  (s.partPositions p).foldl (fun s w => if (s.pos w).st = 3 then s.posOn w else s) s

/-- The end of an action: positions that were powering on are on, and level 2 source PART_EVT reports it. -/
def State.stageEnd (s : State) (p ph : Nat) : State := (if ph = 4 then s.powerUp p else s).l2Event (176 + p)

/-- Go through the stages l from the first on, as far as each has ended. -/
def State.runStages (s : State) (p : Nat) : List Nat → State
  | [] => s.modeEnd p
  | ph :: r =>
    let s := s.stageStart p ph
    if s.stageDone p then (s.stageEnd p ph).runStages p r else s

/-- The streams allow the transition: FREE, or one of R246's exceptions. -/
def State.streamsAllow (s : State) (p : Nat) : Bool :=
  let x := s.part p
  (s.liveCtxs.all fun e => ctxPart e.2 ≠ p) || (x.mode = 1 && x.target = 5) || (x.mode = 5 && x.target = 1)

/-- The present instant is an adaptation frame boundary (02 R97). -/
def State.atFrameBoundary (s : State) : Bool := s.now % s.dget 0x2010 2 = 0

/-- The actions start: in OPERATIONAL at an adaptation frame boundary after the request and after the last stream became
FREE (R247, R265), or for a forced move as soon as every stream is FREE. A recording that begins counts its units anew
(Table 7-1). -/
def State.transitionStart (s : State) (p : Nat) : State :=
  let x := s.part p
  let go := x.pend && s.streamsAllow p && (if x.forced then x.phase = 0
    else x.phase = 1 && s.node = .operational && s.atFrameBoundary && x.since ≠ s.now)
  if !go || s.node = .fault then s
  else
    let t := s.now
    let s :=
      if x.mode = 1 && x.target = 5 then s.setPart p { x with recFrom := some t, recTo := none, trWr := 0 }
      else if x.mode = 5 && x.target = 1 then s.setPart p { x with recTo := some t }
      else if x.target = 5 then s.setPart p { x with recFrom := some 0, recTo := none, trWr := 0 }
      else if x.mode = 5 then s.setPart p { x with recFrom := none, recTo := none }
      else s
    s.runStages p (stagesOf x.mode.toNat x.target.toNat)

/-- An action in progress has ended: the next ones run, and after the last one the mode changes. -/
def State.transitionGo (s : State) (p : Nat) : State :=
  let x := s.part p
  let ph := x.phase.toNat
  if !x.pend || ph < 2 || !s.stageDone p then s
  else
    let rest := ((stagesOf x.mode.toNat x.target.toNat).dropWhile fun q => q ≠ ph).drop 1
    (s.stageEnd p ph).runStages p rest

def execModeChanged (p : PartId) (s : State) : Host.Outcome State Fault Refusal := .next (s.transitionGo p.toNat)

/-! ## Partition entries (R243, Table 7-2) -/

/-- Give granule g to owner o, after the zeroing that R256 asks for. -/
def State.granGive (s : State) (g o : Nat) : State :=
  if s.granZeroing g then { s with granNext := tabSet none s.granNext g (some (BitVec.ofNat 5 o)) } else s.granWrite g o

/-- Granule ranges [a, a + n) and [b, b + m) meet. -/
def rangesMeet (a n b m : Nat) : Bool := decide (0 < n) && decide (0 < m) && decide (a < b + m) && decide (b < a + n)

/-- Apply a new range of granules. -/
def State.granApply (s : State) (p f n : Nat) : State :=
  let old := s.granRange p
  let s := (s.dset (0x3000 + p) 8 f).dset (0x3000 + p) 9 n
  let new := s.granRange p
  let s := (old.filter fun g => !new.contains g).foldl (fun s g => s.granGive g 31) s
  (new.filter fun g => !old.contains g).foldl (fun s g => s.granGive g p) s

/-- The value's range (Table 7-2) for sub-index 4 to 12. -/
def State.partRange (s : State) (p sub v : Nat) : Bool :=
  let i := 0x3000 + p
  match sub with
  | 6 => decide (v ≤ 262144 - s.prickCount)
  | 8 => decide (v + s.dget i 9 ≤ 1535) && decide (v ≤ 1534)
  | 9 => decide (v + s.dget i 8 ≤ 1535)
  | 11 => v = 0 || (v % 2 ^ 15 = 0 && decide (s.dget i 8 * 2 ^ 26 ≤ v) && decide (v < (s.dget i 8 + s.dget i 9) * 2 ^ 26))
  | 12 => v = 0 || (decide (128 ≤ v) && decide (v ≤ 2 ^ 31) && v % 128 = 0)
  | _ => true

/-- A write of v would give a resource to two partitions or break a sum (R243), or a quota below the region's credits
(06 Table 6-2). -/
def State.partClash (s : State) (p sub v : Nat) : Bool :=
  let i := 0x3000 + p
  let qs := (List.range 16).filter fun q => q ≠ p
  match sub with
  | 4 => qs.any fun q => (s.part q).spin0.toNat &&& v ≠ 0
  | 5 => qs.any fun q => (s.part q).spin1.toNat &&& v ≠ 0
  | 6 => decide (262144 - s.prickCount < v + qs.foldl (fun n q => n + (s.part q).ctxq) 0)
  | 7 => decide (458752 < v + qs.foldl (fun n q => n + (s.region q).quota) 0) || decide (v < s.regionClim p)
  | 8 => qs.any fun q => rangesMeet v (s.dget i 9) (s.dget (0x3000 + q) 8) (s.dget (0x3000 + q) 9)
  | 9 => qs.any fun q => rangesMeet (s.dget i 8) v (s.dget (0x3000 + q) 8) (s.dget (0x3000 + q) 9)
  | 10 => qs.any fun q => (s.part q).egr.toNat &&& v ≠ 0
  | _ => false

/-- The commit of decoder p ends when the partition changes its range; a line of it is then poison where its granule is lost
(15 R431). -/
def State.dropHdm (s : State) (p : Nat) : State :=
  let x : Hdm := tabGet {} s.hdms p
  { s with hdms := tabSet {} s.hdms p { x with committed := false, refused := x.committed || x.refused } }

/-- The spindles of a partition in M0 are off (Table 7-3). -/
def State.dormantOff (s : State) (p : Nat) : State :=
  if (s.part p).mode ≠ 0 || (s.part p).pend then s
  else (s.partPositions p).foldl (fun s w => if (s.pos w).st ≠ 2 then s.posOff w else s) s

/-- Apply an accepted value to the registers of Table 7-1. A mask takes effect without the spindles that are out of
service (17 R510). -/
def State.partApply (s : State) (p sub v : Nat) : State :=
  let x := s.part p
  let i := 0x3000 + p
  let oosMask (b : Nat) : Nat := (List.range 64).foldl (fun m j => if s.oos (b + j) then m else m + 2 ^ j) 0
  let d := s.dset i sub v
  match sub with
  | 4 => (d.setPart p { x with spin0 := BitVec.ofNat 64 (v &&& oosMask 0) }).dormantOff p
  | 5 => (d.setPart p { x with spin1 := BitVec.ofNat 64 (v &&& oosMask 64) }).dormantOff p
  | 6 => d.setPart p { x with ctxq := v }
  | 7 => d.setRegion p { s.region p with quota := v }
  | 8 => (s.granApply p v (s.dget i 9)).dropHdm p
  | 9 => (s.granApply p (s.dget i 8) v).dropHdm p
  | 10 => d.setPart p { x with egr := BitVec.ofNat 32 v }
  | 11 => d.setPart p { x with trBase := v }
  | 12 => d.setPart p { x with trUnits := BitVec.ofNat 32 v }
  | _ => d

/-- A write of sub-index 4 to 12 of partition p. restore: made by the restore of stored values, which R243 does not refuse
(16 R478). -/
def State.partRule (s : State) (p sub v : Nat) (restore : Bool) : Nat × State :=
  let x := s.part p
  if !s.partRange p sub v then (abRange, s)
  else if restore || (sub = 11 && v = 0) then (0, s.partApply p sub v)
  else if x.pend then (abBusy, s)
  else if x.mode ≠ 0 || s.partClash p sub v then (abRefused, s)
  else (0, s.partApply p sub v)

/-! ## Replay requests (R260) -/

/-- A write of REPLAY_CONTEXT. -/
def State.replayRule (s : State) (p c : Nat) : Nat × State :=
  let x := s.part p
  if x.replay = 1 then (abBusy, s)
  else if 262144 - s.prickCount ≤ c || ctxState (s.entry c) ≠ stBackground || ctxPart (s.entry c) ≠ p then
    (0, s.setPart p { x with replay := 4 })
  else
    let n := s.dget (0x3000 + p) 0x12
    let s := s.setPart p { x with
      replay := 1, replayCtx := c, replayAt := s.dget (0x3000 + p) 0x11, replayLeft := n, replayRec := none }
    (0, s.replayNext p (n + 1))

/-! ## Pattern cards (R249, R250) -/

/-- The card of a DOMAIN value: an abort code, or the card (none: empty). -/
def parseCard (l : List Byte) : Sum Nat (Option Card) :=
  let n := beyond l 4 2
  if l.isEmpty then .inr none
  else if l.length ≠ 16 + 16 * n then .inl abLength
  else
    let fc := beyond l 0 4
    let rsv := beyond l 6 10 ≠ 0 || (List.range n).any fun i => beyond l (26 + 16 * i) 6 ≠ 0
    if fc < 10000 || 10000000 < fc || n < 1 || 256 < n || rsv then .inl abRange
    else .inr (some ⟨fc, (List.range n).map fun i =>
      ⟨beyond l (16 + 16 * i) 4, beyond l (20 + 16 * i) 4, beyond l (24 + 16 * i) 2⟩⟩)

/-- Entries in ascending START order. -/
def ascending : List CardEntry → Bool
  | x :: y :: r => decide (x.start ≤ y.start) && ascending (y :: r)
  | _ => true

/-- No entry reaches into the next, nor the last beyond the frame. -/
def disjointIn (fc : Nat) : List CardEntry → Bool
  | x :: y :: r => decide (x.start + x.len ≤ y.start) && disjointIn fc (y :: r)
  | [x] => decide (x.start + x.len ≤ fc)
  | [] => true

/-- The LENGTH condition of R250 at a step. -/
def State.cardFits (s : State) (step : Nat) (c : Card) : Bool :=
  c.entries.all fun e =>
    decide (cyclesNs step (prBe (s.prick e.prick) + kJob) + s.blocking step + cyclesNs step 4 ≤ e.len)

/-- The CARD_STATUS code that refuses card c of spindle k, or 0 (R250). -/
def State.cardTest (s : State) (k : Nat) (c : Option Card) : Nat :=
  match s.partOf k with
  | none => 7
  | some p =>
    if (s.part p).mode ≠ 0 && (s.part p).mode ≠ 2 then 7
    else if !(s.boundEntries k).isEmpty then 6
    else match c with
      | none => 0
      | some c =>
        if !ascending c.entries then 2
        else if !disjointIn c.fc c.entries then 3
        else if c.entries.any fun e => !prValid (s.prick e.prick) || prPart (s.prick e.prick) ≠ p then 4
        else if !s.cardFits s.admitStep c then 5
        else 0

/-- A write of spindle k's PATTERN_CARD (R250): an accepted card waits for the next card frame, an empty one removes the
card. -/
def State.cardRule (s : State) (k : Nat) (l : List Byte) : Nat × State :=
  match parseCard l with
  | .inl a => (a, s)
  | .inr c =>
    let t := s.cardTest k c
    let x := s.card k
    if t ≠ 0 then (abRefused, s.setCard k { x with status := t })
    else
      let s := s.setDom (0x4E00 + k) 1 l
      match c with
      | none => (0, s.setCard k {})
      | some c =>
        (0, s.setCard k { x with
          waiting := some c, at_ := (s.now / c.fc + 1) * c.fc, status := if x.card.isSome then 1 else 0 })

/-- A waiting card takes effect at its first card frame (R250). -/
def State.cardFrame (s : State) (k : Nat) : State :=
  let x := s.card k
  match x.waiting with
  | some c => if x.at_ ≤ s.now then s.setCard k { x with card := some c, waiting := none, status := 1 } else s
  | none => s

def execCardFrameStart (k : Spindle) (s : State) : Host.Outcome State Fault Refusal := .next (s.cardFrame k.toNat)

/-- The START of a bound, ready skein has come on the hoop's mirror. -/
def State.startDue (s : State) (k : Nat) (x : Skein) : Bool :=
  x.bound && !x.due &&
    (match (s.aux x.ctx).cardEntry with
      | some e => decide (windowStart x.win 0 (ctxPeriod (s.entry x.ctx)) + e.2 ≤ s.mirror (k / 8))
      | none => false)

/-- CARD_ENTRY_START (R252): the bound skein is dispatched next, and a background skein that runs stops for it. -/
def State.cardStart (s : State) (k : Nat) : State :=
  let d := s.disp k
  if d.ready.any (s.startDue k) then
    s.setDisp k { d with
      ready := d.ready.map fun x => if s.startDue k x then { x with due := true } else x
      preempt := d.preempt || (match d.running with | some y => y.bg | none => false) }
  else s

def execCardEntryStart (k : Spindle) (s : State) : Host.Outcome State Fault Refusal := .next (s.cardStart k.toNat)

/-! ## Adaptation (02 R97 to R101, 01 R48) -/

/-- The cards of spindle k, in force and waiting, pass R250's LENGTH condition at a step (R253); those of a partition in M0, M3, M6
or M7 hold no step (R263). -/
def State.cardPasses (s : State) (step k : Nat) : Bool :=
  let c := s.card k
  !s.guaranteed k || (c.card.toList ++ c.waiting.toList).all fun x => s.cardFits step x

/-- Every card passes. -/
def State.cardsPass (s : State) (step : Nat) : Bool := (List.range 128).all fun k => s.cardPasses step k

/-- Spindle k's admitted set passes R67 to R70 and R73 at a step; on an M2 spindle its cards pass R250's LENGTH condition in
place of R67 to R69 for the bound streams (R253). -/
def State.spindlePasses (s : State) (step k : Nat) : Bool :=
  let l := s.sigmaUnbound k
  let p := s.partOf k
  let guaranteed := s.liveCtxs.filter fun e => ctxSpindle e.2 = k && s.ctxCounts e.2
  let hbm := guaranteed.all fun e =>
    (s.hbmFail (ctxPart e.2) k (s.prick (ctxPrick e.2)) (match p with | some q => (s.part q).mode = 5 | none => false)).isNone
  s.cardPasses step k && hbm && shuttleOk (s.sigma k) &&
    (l.isEmpty || (depthOk l && rateOk l && (s.spindleTime step l).isNone))

/-- R97 at an admission step, for every spindle. -/
def State.allPass (s : State) (step : Nat) : Bool := (List.range 128).all fun k => s.spindlePasses step k

def State.stepForbidden (s : State) (t : Nat) : Bool := bitOf (s.dget 0x2010 3) t

/-- The admission step once t is in force. -/
def State.stepResult (s : State) (t : Nat) : Nat := max t (s.dget 0x2010 4)

def State.adaptFrame (s : State) : Nat := s.dget 0x2010 2

/-- Decide step t at the present boundary: it is scheduled until the next one. -/
def State.scheduleStep (s : State) (t : Nat) : State :=
  { s with clock := { s.clock with nextStep := some (BitVec.ofNat 2 t, s.now) } }

/-- A step decided at an earlier boundary takes effect (R97), on a CORE edge at this one (01 R38: the cycle begins anew, and u
keeps counting). A step that has since been forbidden is not entered (DEDUCED: R98 and R101 admit no change to one). -/
def State.stepDue (s : State) : State :=
  match s.clock.nextStep with
  | some (t, at_) =>
    if s.now ≤ at_ then s
    else if s.stepForbidden t.toNat then { s with clock := { s.clock with nextStep := none } }
    else { s with clock := { s.clock with step := t, nextStep := none, phase := 0 } }
  | none => s

/-- The hottest hoop, 0.125 °C units. -/
def State.hottest (s : State) : Int := (List.range 16).foldl (fun m h => max m (tabGet 0 s.rst.temps h)) (tabGet 0 s.rst.temps 0)

/-- Step t is permitted as a faster one: it is not forbidden, and the cards pass at it (R253). -/
def State.fasterOk (s : State) (t : Nat) : Bool := !s.stepForbidden t && s.cardsPass (s.stepResult t)

/-- R101 at a boundary: the step in force is forbidden. -/
def State.forbidChoice (s : State) : State :=
  let t := s.clock.step.toNat
  if !s.stepForbidden t || s.clock.nextStep.isSome then s
  else match ((List.range t).reverse).find? s.fasterOk with
    | some u => s.scheduleStep u
    | none =>
      match (List.range 4).find? fun u => t < u && !s.stepForbidden u && s.allPass (s.stepResult u) with
      | some u => s.scheduleStep u
      | none => s

/-- U of spindle k with its streams, at the admission step (R67). -/
def State.utilAt (s : State) (k : Nat) : Frac := utilOf s.admitStep (s.sigma k)

/-- A migration of stream c to spindle dest is one that R97 and R98 allow. -/
def State.mayMigrate (s : State) (c dest : Nat) : Bool :=
  let e := s.entry c
  let a := s.aux c
  let k := ctxSpindle e
  let pr := s.prick (ctxPrick e)
  let p := ctxPart e
  let us := s.utilAt k
  let ud := s.utilAt dest
  let moved := s.setEntry c (rset e 0 9 7 dest)
  decide (c < 262144 - s.prickCount) && ctxLive e && dest ≠ k && s.partOf dest = some p && !s.oos dest &&
    prCodeReg pr ≠ 0 && a.cardEntry.isNone &&
    (match a.lastMig with
      | some f => decide (f + s.dget 0x2010 7 ≤ s.clock.frames)
      | none => true) &&
    decide (ud.1 * us.2 * 1000 + s.dget 0x2010 6 * us.2 * ud.2 < us.1 * ud.2 * 1000) &&
    moved.allPass s.admitStep

/-- Migrate stream c (01 R48, 13 R390): releases from the boundary on go to dest, and its armed list moves with it. -/
def State.migrate (s : State) (c dest : Nat) : State :=
  let e := s.entry c
  let k := ctxSpindle e
  let s := s.setAux c { s.aux c with migFrom := some (k, s.now), lastMig := some s.clock.frames }
  let s := (s.setEntry c (rset e 0 9 7 dest)).wakeSpindle dest
  match tabGet none ((s.shuttle k).armed.map fun x => (x.1, some x.2)) c with
  | none => s
  | some a =>
    let s := s.setShuttle k { s.shuttle k with armed := tabDel (s.shuttle k).armed c }
    s.setShuttle dest { s.shuttle dest with armed := tabIns (s.shuttle dest).armed c a }

/-- The spindle holds no stream and nothing runs on it. -/
def State.spindleEmpty (s : State) (k : Nat) : Bool :=
  (s.liveCtxs.all fun e => ctxSpindle e.2 ≠ k) && (s.disp k).idle && !(s.disp k).handler && (s.disp k).events.isEmpty

/-- One choice of governor firmware; a choice that R97 or R98 does not allow is not made. -/
def State.adaptChoice (s : State) : AdaptChoice → State
  | .nothing => s
  | .stepChange t =>
    let t := t.toNat
    let cur := s.clock.step.toNat
    let limit := sextNat 16 (s.dget 0x2010 12)
    let ok := if t < cur then decide (s.hottest ≤ (limit - 5) * 8) && s.cardsPass (s.stepResult t)
      else cur < t && decide (limit * 8 ≤ s.hottest) && s.allPass (s.stepResult t)
    if ok && s.clock.nextStep.isNone && !s.stepForbidden t then s.scheduleStep t else s
  | .migrate c dest => if s.mayMigrate c.toNat dest.toNat then s.migrate c.toNat dest.toNat else s
  | .hankRetention h retain =>
    if s.dget 0x2010 9 = 1 && (s.hank h.toNat).owner = 0x1F then s.writeHankPwr h.toNat (if retain then 1 else 0) else s
  | .spindleOff k off =>
    let w := s.posOf k.toNat
    let dormant := s.modeOf k.toNat = some 0
    if s.oos k.toNat || dormant then s
    else if !off then (if (s.pos w).st = 2 then s.posPower w else s)
    else if s.dget 0x2010 11 = 1 && s.spindleEmpty k.toNat && (s.pos w).st = 0 then s.posOff w
    else s

/-- R98: the hottest hoop has fallen 5 °C below STEP_DOWN_TEMP, so a step up is made when no change is scheduled. The nearest
faster step that is permitted is the target where the firmware's choices name none (DESIGN CHOICE: R98 names no target). -/
def State.stepUp (s : State) : State :=
  if s.clock.nextStep.isSome || (sextNat 16 (s.dget 0x2010 12) - 5) * 8 < s.hottest then s
  else match ((List.range s.clock.step.toNat).reverse).find? s.fasterOk with
    | some u => s.scheduleStep u
    | none => s

/-- ADAPT_FRAME_BOUNDARY (R97), at an instant that is one: a step decided before takes effect, R101's choice is made, then the
firmware's own, and R98's step up. With fewer than three distaff cores running adaptation makes no change (01 R35). -/
def State.adaptBoundary (s : State) (l : List AdaptChoice) : State :=
  if s.node = .fault || s.distaffRunning < 3 || !s.atFrameBoundary then s
  else
    let s := s.stepDue.forbidChoice
    if s.dget 0x2010 1 = 1 then (l.foldl State.adaptChoice s).stepUp else s

def execAdaptFrameBoundary (choices : List AdaptChoice) (s : State) : Host.Outcome State Fault Refusal :=
  .next (s.adaptBoundary choices)

/-! ## Spare replacement (17 R509) -/

/-- Copy n bytes from address a to address b. -/
def State.copyRange (s : State) (a b n : Nat) : State :=
  let src := s.mem.filter fun e => a ≤ e.1 && e.1 < a + n
  let s := s.zeroRange b n
  { s with mem := src.foldl (fun m e => tabSet (memDflt (b + (e.1 - a))) m (b + (e.1 - a)) e.2) s.mem }

/-- Positions of hoop h that no logical spindle maps to. -/
def State.unmapped (s : State) (h : Nat) : List Nat :=
  ((List.range 9).map fun p => 9 * h + p).filter fun w => (s.logOf w).isNone

/-- The hoop's spare: an unmapped position that is on and has not failed (0x5020 + h.02). -/
def State.spareOf (s : State) (h : Nat) : Option Nat :=
  (s.unmapped h).find? fun w => (s.pos w).st = 0 && !s.posFailed w

def State.setMap (s : State) (k w : Nat) : State := { s with posMap := tabSet (k % 8) s.posMap k (w % 9) }

/-- The copy of R509 and the change of mapping: k's position becomes w. -/
def State.moveSpindle (s : State) (k w : Nat) : State :=
  let old := s.posOf k
  let s := s.copyRange (posWindow old) (posWindow w) 0x20000
  (((s.setL1 w (s.l1 old)).setMc w (s.mc old)).applyPatch w).setMap k w

def State.setSpare (s : State) (k : Nat) (m : Option SpareMove) : State :=
  { s with rst := { s.rst with spare := tabSet none s.rst.spare k m } }

/-- What is left of the copy of spindle k's replacement is made, and the mapping changes (Table 17-12). -/
def State.spareMove (s : State) (k : Nat) : State :=
  match tabGet none s.rst.spare k with
  | some m => if m.moved then s else (s.moveSpindle k m.new).setSpare k (some { m with moved := true })
  | none => s

/-- The mapping changes 1,185 CORE cycles after the boundary at which a replacement began (Table 17-12). -/
def State.spareTick (s : State) : State :=
  s.rst.spare.foldl (fun s e =>
    match e.2 with
    | some m => if m.start + 1185 ≤ s.clock.u then s.spareMove e.1 else s
    | none => s) s

/-- The position of spindle k is to be replaced: its controller has halted (R495), it is in POS_FAIL (R510), or the rounds of
R510, which need three distaff cores (01 R35), replace each position in turn. -/
def State.replaceDue (s : State) (k : Nat) : Bool :=
  (s.core k).run = .halted || s.posFailed (s.posOf k) || (s.dget 0x6000 1 = 1 && decide (3 ≤ s.distaffRunning))

/-- The spare that may take over spindle k now: LIVE_SPARE_ENABLE is 1, and no replacement of k was made in this busy period. -/
def State.spareFor (s : State) (k : Nat) : Option Nat :=
  if s.dget 0x2010 8 = 0 || (s.disp k).drain || (s.disp k).replaced || s.node = .fault then none else s.spareOf (k / 8)

/-- The replacement of k's position by w begins: release events and level 1 delivery are held. -/
def State.replaceBy (s : State) (k w : Nat) : State :=
  (s.modDisp k fun d => { d with drain := true, replaced := true }).setSpare k
    (some { old := s.posOf k, new := w, start := s.clock.u })

def State.setOos (s : State) (k : Nat) (b : Bool) : State := { s with rst := { s.rst with oos := tabSet false s.rst.oos k b } }

/-- A spindle whose position failed returns to service at position w, with nothing to copy (17 R495, R510). -/
def State.returnTo (s : State) (k w : Nat) : State :=
  ((((s.setMap k w).setOos k false).setCore k (Core.init k)).setSeqr k {}).applyPatch w

/-- SPARE_REPLACEMENT: at a skein boundary, with LIVE_SPARE_ENABLE, at most once in a busy period. A spindle out of service because
its position failed is given the spare (R495). -/
def State.spareReplace (s : State) (k : Nat) : State :=
  match s.spareFor k with
  | none => s
  | some w =>
    if s.oos k then (if s.posFailed (s.posOf k) then s.returnTo k w else s)
    else if (s.disp k).running.isSome || (s.pos (s.posOf k)).st ≠ 0 || !s.replaceDue k then s
    else s.replaceBy k w

/-- The test of a position begins (17 R495, Table 17-10, 07 R261). -/
def State.startPosTest (s : State) (w : Nat) : State :=
  let s := ((s.resetLocal w).resetCore w .off).setPos w { st := 4 }
  { s with rst := { s.rst with tests := s.rst.tests ++ [(0, w)] } }

/-- Spindle k goes out of service: its streams are force-closed with FAULT events, and its position is unmapped, reset and tested
(R495). -/
def State.takeOut (s : State) (k : Nat) : State :=
  let w := s.posOf k
  let s := (s.liveCtxs.filter fun e => ctxSpindle e.2 = k).foldl (fun s e => s.forceCloseStream e.1 true) s
  ((s.posReset w true).resetCore w .off).setOos k true

/-- The mapping returns to the old position, with what its level 1 controller and MC registers hold by then; the spare is marked in
POS_FAIL (R509). A controller that had halted puts the spindle out of service (R495; DEDUCED, log entry 100). -/
def State.spareBack (s : State) (k : Nat) (m : SpareMove) : State :=
  let s := (((s.setL1 m.old (s.l1 m.new)).setMc m.old (s.mc m.new)).setMap k m.old).setPosFail m.new
  if (s.core k).run = .halted then s.takeOut k else s

/-- SPARE_READBACK_END: dispatch may begin, on the new position, whose controller starts as after a reset if the old one had halted,
or, after a mismatch, on the old one. -/
def State.spareReadback (s : State) (k : Nat) (ok : Bool) : State :=
  match tabGet none s.rst.spare k with
  | none => s
  | some m =>
    let s := ((s.spareMove k).setSpare k none).modDisp k fun d => { d with drain := false }
    let s := if (s.disp k).events.isEmpty then s.idleMarks k else s
    if !ok then s.spareBack k m
    else (if (s.core k).run = .halted then s.setCore k (Core.init k) else s).posReset m.old true

def execSpareReplacement (k : Spindle) (s : State) : Host.Outcome State Fault Refusal := .next (s.spareReplace k.toNat)

def execSpareReadbackEnd (k : Spindle) (match_ : Bool) (s : State) : Host.Outcome State Fault Refusal :=
  .next (s.spareReadback k.toNat match_)

end Sys2Proof.Machine
end

