-- ==== Sys2Proof/Machine/Host.lean ====
section
/-! DEFINITION. The host side: function level resets, CXL, the rings' registers, the commands of the submission ring, the
doorbells and the links (15 R427 to R441, 06 R217, R229, R230, R235). -/

namespace Sys2Proof.Machine
open Sys2Proof

/-! ## Function level resets (R429) -/

/-- The table entries of keys lo to hi − 1 go back to their resets. -/
def tabCut {α : Type} (t : Tab α) (lo hi : Nat) : Tab α := t.filter fun e => e.1 < lo || hi ≤ e.1

/-- MSI-X capability and table, and the mailbox, of function fn; its translations go. -/
def State.fnReset (s : State) (fn : Nat) : State :=
  { s with
    msix := tabCut s.msix (2048 * fn) (2048 * (fn + 1))
    msixFns := tabSet {} s.msixFns fn {}
    mailboxes := tabSet {} s.mailboxes fn {}
    ats := s.ats.filter fun e => e.1 ≠ fn }

/-- What an FLR of VFp resets: rings, mailbox and MSI-X. -/
def State.vfReset (s : State) (p : Nat) : State := { s.fnReset p with rings := tabCut s.rings (4 * p) (4 * p + 4) }

def State.vfFlr (s : State) (p : Nat) : State := (s.vfReset p).l2Event 24

def execVfFlr (p : PartId) (s : State) : Host.Outcome State Fault Refusal := .next (s.vfFlr p.toNat)

def execPfFlr (s : State) : Host.Outcome State Fault Refusal := .next ((s.fnReset 16).l2Event 24)

/-! ## CXL (R431) -/

/-- A commit of decoder d over count granules from base on: refused outside its partition's granules. -/
def State.hdmCommit (s : State) (d base count : Nat) : State :=
  let first := s.dget (0x3000 + d) 8
  let n := s.dget (0x3000 + d) 9
  let ok := s.cxlMode && decide (0 < count) && decide (first ≤ base) && decide (base + count ≤ first + n)
  if ok then { s with hdms := tabSet {} s.hdms d ⟨base, count, true, false⟩, resp := .none }
  else { s with hdms := tabSet {} s.hdms d ⟨base, count, false, false⟩, resp := .error }

def execHdmCommit (d : PartId) (base count : BitVec 12) (s : State) : Host.Outcome State Fault Refusal :=
  .next (s.hdmCommit d.toNat base.toNat count.toNat)

/-- The decoder whose granules hold address a: committed, or with a commit that a change of its partition's range ended. -/
def State.hdmOf (s : State) (a : Nat) : Option Nat :=
  (List.range 16).find? fun d =>
    let x : Hdm := tabGet {} s.hdms d
    (x.committed || x.refused) && decide (x.base ≤ a / 2 ^ 26) && decide (a / 2 ^ 26 < x.base + x.count)

/-- A CXL.mem access of the 64-byte line that holds address a, by Throughput service: nothing happens while that does not
reach it (R431, 05 R195). A read that is uncorrectable is counted (05 R189) and returns poisoned data (DESIGN CHOICE: R431 names
poison for a granule that is not the decoder's only). -/
def State.cxlMem (s : State) (a : Nat) (op : BusOp) (chk : DataCheck) : State :=
  let b := a / 64 * 64
  if !s.cxlMode then { s with resp := .error }
  else match s.hdmOf a with
    | none => { s with resp := .error }
    | some d =>
      if s.hbmServes b d && !s.matrixNow b 64 then s
      else match op with
      | .read =>
        if s.hbmServes b d then
          { s.memCheck b chk with resp := if chk = .uncorrectable then .poison else .data (s.bytes b 64) }
        else { s with resp := .poison }
      | .write v =>
        let s := { s with resp := .none }
        if s.hbmServes b d then s.poke b (bytesOfNat 64 v.toNat) else s

def execCxlMemAccess (addr : DWord) (op : Checked BusOp DataCheck) (s : State) : Host.Outcome State Fault Refusal :=
  .next (s.cxlMem addr.toNat op.val op.chk)

/-- A host snoop of the line that holds address a; the device holds clean lines only. The answer is CXL.cache's response
code. -/
def State.cxlSnoop (s : State) (k : SnoopKind) (a : Nat) : State :=
  let hit := s.cxlCache.any fun e => e.1 = a / 64
  let code (n : Nat) : Resp := .data [BitVec.ofNat 8 n]
  if !s.cxlMode then s
  else if !hit then { s with resp := code 4 }
  else match k with
    | .data => { s with resp := code 1 }
    | .inv => { s with cxlCache := s.cxlCache.filter fun e => e.1 ≠ a / 64, resp := code 5 }
    | .cur => { s with resp := code 6 }

def execCxlHostSnoop (k : SnoopKind) (addr : DWord) (s : State) : Host.Outcome State Fault Refusal :=
  .next (s.cxlSnoop k addr.toNat)

/-! ## Links (R427, R444, 12 R377) -/

/-- The link as trained: lanes, speed code and mode; no lanes when it is down. A training outside the entries of R453, above 32 GT/s
with CXL enabled (R427, R431), before PERST_N rises and INIT ends (17 R491), or after a thermal trip stopped the SerDes clocks (17
R500) cannot happen. -/
def State.pcieLink (s : State) (width speed mode : Nat) : State :=
  let top := if s.dget 0x2200 3 = 1 then min 5 (s.dget 0x2200 2) else s.dget 0x2200 2
  let ok := (width = 0 && speed = 0 && mode = 0) ||
    (!s.rst.perstLow && !s.rst.tripped && s.node ≠ .init && (width = 4 || width = 8 || width = 16) && decide (width ≤ s.dget 0x2200 1) &&
      decide (1 ≤ speed) && decide (speed ≤ top) && (mode = 0 || (mode = 1 && s.dget 0x2200 3 = 1)))
  if !ok then s
  else
    let s := ((s.dset 0x2200 5 width).dset 0x2200 6 speed).dset 0x2200 7 mode
    ({ s with cxlCache := if mode = 1 then s.cxlCache else [] }).l2Event 24

def execPcieLinkChange (width speed mode : Byte) (s : State) : Host.Outcome State Fault Refusal :=
  .next (s.pcieLink width.toNat speed.toNat mode.toNat)

/-- The link of logical port n goes down: LINK_UP clears, and a link that was up raises ETH m (12 Table 12-9). -/
def State.portDown (s : State) (n : Nat) : State :=
  if s.dget (0x2110 + n) 5 = 0 then s else (s.dset (0x2110 + n) 5 0).l2Event (16 + n / 4)

def execEthernetLinkChange (port : PortId) (up : Bool) (s : State) : Host.Outcome State Fault Refusal :=
  .next (if (s.portRate port.toNat).isNone || (up && (s.rst.standby || s.rst.tripped)) then s
    else (s.dset (0x2110 + port.toNat) 5 (b2n up)).l2Event (16 + port.toNat / 4))

/-! ## Ring registers (R433 to R435) -/

/-- A write of RING_BASE. -/
def State.ringBase (s : State) (p r v : Nat) : State :=
  let g := s.ring p r
  if g.en then s else s.setRing p r { g with base := v % 2 ^ 64 / 4096 * 4096 }

/-- A write of RING_CFG. A reserved LOG2 leaves the field as it is (00 R22); one that sets EN with it sets ERR (R433). -/
def State.ringCfg (s : State) (p r v : Nat) : State :=
  let g := s.ring p r
  let g := if bitOf v 9 then { g with err := false } else g
  let en := bitOf v 8
  let log2 := fld v 0 5
  if g.en then s.setRing p r { g with en := en }
  else
    let ok := 6 ≤ log2 && log2 ≤ 16
    let g := if ok then { g with log2 := log2 } else g
    if !en then s.setRing p r g
    else if ok then s.setRing p r { g with en := true, pi := 0, ci := 0, stopped := false }
    else s.setRing p r { g with err := true }

def execRingEnable (p : PartId) (r : StackId) (v : DWord) (s : State) : Host.Outcome State Fault Refusal :=
  .next (if s.hostUp then s.ringCfg p.toNat r.toNat v.toNat else s)

/-- A write of RING_PI: the doorbell of ARQ and CSQ. -/
def State.ringPi (s : State) (p r v : Nat) : State :=
  let g := s.ring p r
  if r = 1 || r = 3 then s
  else if g.size < (v + 2 ^ 17 - g.ci) % 2 ^ 17 then s.setRing p r { g with err := true }
  else (s.setRing p r { g with pi := v, stopped := false }).l2Event (if r = 0 then 128 + p else 144 + p)

def execRingPi (p : PartId) (r : StackId) (v : BitVec 17) (s : State) : Host.Outcome State Fault Refusal :=
  .next (if s.hostUp then s.ringPi p.toNat r.toNat v.toNat else s)

/-- A write of RING_CI: ANQ and CCQ. -/
def State.ringCi (s : State) (p r v : Nat) : State :=
  if r = 1 || r = 3 then s.setRing p r { s.ring p r with ci := v } else s

def execRingCi (p : PartId) (r : StackId) (v : BitVec 17) (s : State) : Host.Outcome State Fault Refusal :=
  .next (if s.hostUp then s.ringCi p.toNat r.toNat v.toNat else s)

/-! ## Results of commands (R439) -/

def rDone : Nat := 0
def rParameter : Nat := 1
def rNotOwned : Nat := 2
def rState : Nat := 3
def rQuota : Nat := 4
def rInUse : Nat := 5
def rHostError : Nat := 6

/-- A completion entry on ring 3; discarded and counted while the ring is not enabled (R429). -/
def State.ccqAnswer (s : State) (p op tag result detail : Nat) : State :=
  let g := s.ring p 3
  if g.en && decide (g.used < g.size) then
    s.ringPut p 3 (op % 2 ^ 8 + result * 2 ^ 8 + tag % 2 ^ 16 * 2 ^ 16 + detail % 2 ^ 32 * 2 ^ 32)
  else s.setRing p 3 g.lose

/-- RESULT and DETAIL of a QCMD RESULT. -/
def qcmdResult (r : Nat) : Nat × Nat :=
  if r = 0 then (rDone, 0) else if r = 4 then (rQuota, 0) else (rState, r)

/-- The queue a command names: it must be ACTIVE (or, for DELETE, BROKEN) and the partition's. -/
def State.queueOwn (s : State) (p q : Nat) (del : Bool) : Option (Nat × Nat) :=
  let x := s.queue q
  if x.state = .free then some (rState, 5)
  else if x.owner.toNat ≠ p then some (rNotOwned, 0)
  else if x.state = .broken && !del then some (rState, 5)
  else none

/-! ## Queue commands (06 R217, R229, 12 R382) -/

def State.cmdQcreate (s : State) (p : Nat) (e : Rec64) : Nat × Nat × State :=
  let q := recByte e 4 2
  let mode := recByte e 6 1
  let prod := recByte e 7 1
  let base := recByte e 8 4
  let x := s.queue q
  if 1 < mode || 4 < prod || 2 ^ 20 ≤ base then (rParameter, 0, s)
  else if x.state ≠ .free && x.owner.toNat ≠ p then (rNotOwned, 0, s)
  else if x.state ≠ .free then (rState, 1, s.setQueue q { x with result := 1 })
  else
    let t := (s.setQueue q { x with
      owner := BitVec.ofNat 4 p, flush := mode = 1, prod := BitVec.ofNat 3 prod, baseClim := base }).createQueue q
    let r := (t.queue q).result.toNat
    let d := qcmdResult r
    (d.1, d.2, if r = 0 then t else s.setQueue q { x with result := BitVec.ofNat 3 r })

def State.cmdQdelete (s : State) (p : Nat) (e : Rec64) : Nat × Nat × State :=
  let q := recByte e 4 2
  match s.queueOwn p q true with
  | some r => (r.1, r.2, s)
  | none =>
    let t := s.deleteQueue q
    let d := qcmdResult (t.queue q).result.toNat
    (d.1, d.2, t)

/-- Groups that hold a queue of a partition other than p, with that partition. -/
def State.othersIn (s : State) (p : Nat) : List (Nat × Nat) :=
  s.qe.queues.filterMap fun e =>
    if e.2.state ≠ .free && e.2.wmen && e.2.owner.toNat ≠ p then some (e.2.wmg.toNat, e.2.owner.toNat) else none

/-- WM_FCO_PIN of a group; 255 none. -/
def State.fcoPinOf (s : State) (g : Nat) : Nat := s.dget (0x7200 + g) 3

def State.cmdQgroup (s : State) (p : Nat) (e : Rec64) : Nat × Nat × State :=
  let q := recByte e 4 2
  let g := recByte e 6 1
  let member := recByte e 7 1
  if 63 < g || 1 < member then (rParameter, 0, s)
  else match s.queueOwn p q false with
    | some r => (r.1, r.2, s)
    | none =>
      let others := s.othersIn p
      let pin := s.fcoPinOf g
      let m4 (x : Nat) : Bool := (s.part x).mode = 4
      if member = 1 && others.any fun o => o.1 = g then (rNotOwned, 0, s)
      else if member = 1 && pin < 8 && others.any fun o => s.fcoPinOf o.1 = pin && (m4 p || m4 o.2) then (rInUse, 0, s)
      else
        let x := s.queue q
        let old := x.wmg.toNat
        let s := s.setQueue q { x with wmg := BitVec.ofNat 6 g, wmen := member = 1 }
        (rDone, 0, (s.wmUpdate old).wmUpdate g)

/-- Spindle k is in partition p's mask and in service. -/
def State.ownSpindle (s : State) (p k : Nat) : Bool := k < 128 && s.partOf k = some p

def State.cmdQnote (s : State) (p : Nat) (e : Rec64) : Nat × Nat × State :=
  let q := recByte e 4 2
  let k := recByte e 6 1
  let n := recByte e 7 1
  let bind := recByte e 8 1
  if n < 8 || 15 < n || 1 < bind then (rParameter, 0, s)
  else match s.queueOwn p q false with
    | some r => (r.1, r.2, s)
    | none =>
      if !s.ownSpindle p k then (rNotOwned, 0, s)
      else if bind = 0 then
        (rDone, 0, s.setQueue q { s.queue q with note := (s.queue q).note.erase (k, n) })
      else
        let s := (s.qe.queues.filter fun e => e.2.note.contains (k, n)).foldl (fun s e =>
          s.setQueue e.1 { s.queue e.1 with note := (s.queue e.1).note.erase (k, n) }) s
        (rDone, 0, s.setQueue q { s.queue q with note := (s.queue q).note ++ [(k, n)] })

def State.cmdQmsix (s : State) (p : Nat) (e : Rec64) : Nat × Nat × State :=
  let q := recByte e 4 2
  let v := recByte e 6 2
  if v = 1 || 119 < v then (rParameter, 0, s)
  else match s.queueOwn p q false with
    | some r => (r.1, r.2, s)
    | none => (rDone, 0, s.setQueue q { s.queue q with msix := if v = 0 then none else some v })

def State.cmdQegress (s : State) (p : Nat) (e : Rec64) : Nat × Nat × State :=
  let q := recByte e 4 2
  let port := recByte e 6 1
  let bind := recByte e 7 1
  if 31 < port || 1 < bind || (s.portRate port).isNone then (rParameter, 0, s)
  else match s.queueOwn p q false with
    | some r => (r.1, r.2, s)
    | none =>
      if bind = 0 then (rDone, 0, s.setQueue q { s.queue q with egress := none })
      else if !bitOf (s.part p).egr.toNat port then (rNotOwned, 0, s)
      else if !(s.queue q).flush then (rParameter, 0, s)
      else if s.testing 4 (port / 4) then (rInUse, 0, s)
      else (rDone, 0, s.setQueue q { s.queue q with egress := some port })

/-! ## Prickings (06 R235) -/

/-- A field of the image breaks Table 6-13. -/
def prickingBad (x : Rec64) : Bool :=
  prCodeReg x = 3 || rfld x 0 57 7 ≠ 0 || 704 < prSh x || rfld x 1 58 6 ≠ 0 || prInCred x = 0 || rfld x 5 12 52 ≠ 0 ||
    rfld x 7 0 64 ≠ 0

def State.writePricking (s : State) (p i : Nat) (x : Rec64) : Nat × State :=
  let old := s.prick i
  if prPart x ≠ p || (prValid old && prPart old ≠ p) then (rNotOwned, s)
  else if s.liveCtxs.any fun e => ctxPrick e.2 = i then (rInUse, s)
  else if s.prickCount ≤ i || prickingBad x then (rParameter, s)
  else (rDone, s.setEntry (s.prickEntry i) x)

/-! ## Rules (06 R230, Table 6-9) -/

/-- Every byte of [a, a + n) lies in a hank or a granule that partition p owns (R230). -/
def State.ownedRange (s : State) (p a n : Nat) : Bool :=
  if a < 0x001800000000 then
    decide (a + n ≤ 0x0017FC000000) && (List.range (n / 2 ^ 26 + 2)).all fun i =>
      let g := a / 2 ^ 26 + i
      a + n ≤ g * 2 ^ 26 || s.granOwner g = p
  else
    decide (0x010000000000 ≤ a) && decide (a + n ≤ 0x010010000000) &&
      (List.range (n / 0x400000 + 2)).all fun i =>
        let h := (a - 0x010000000000) / 0x400000 + i
        a + n ≤ hankBase h || (s.hank h).owner.toNat = p

/-- Two rules have the same key. -/
def Rule.sameKey (r t : Rule) : Bool :=
  r.port = t.port && r.kind = t.kind && (if bitOf r.vlan 12 then r.vlan = t.vlan else !bitOf t.vlan 12) &&
    (r.kind ≠ 0xFE || r.etype = t.etype) && ((r.kind ≠ 0 && r.kind ≠ 2) || r.ecpriId = t.ecpriId)

/-- The fields of any rule, the default rule too: port in use, slots, ring alignment, and the queue's producer class. -/
def State.ruleShape (s : State) (r : Rule) : Bool :=
  r.port < 32 && (s.portRate r.port).isSome && 8 ≤ r.slotLog2 && r.slotLog2 ≤ 14 && 1 ≤ r.slots && r.slots < 65536 &&
    r.ringBase % 256 = 0 && r.ringBase < 2 ^ 48 && (s.queue r.queue).state = .active &&
    (s.queue r.queue).prod.toNat = pcClassifier

/-- The ring of a rule lies in what the queue's owner owns. -/
def State.ruleRing (s : State) (r : Rule) : Bool :=
  s.ownedRange (s.queue r.queue).owner.toNat r.ringBase (r.slots * 2 ^ r.slotLog2)

/-- Read a rule image: none when a byte that must be 0 is not. -/
def ruleOf (p : Nat) (x : Rec64) : Option Rule :=
  if recByte x 11 1 ≠ 0 || recByte x 14 2 ≠ 0 || recByte x 24 8 ≠ 0 then none
  else some
    { port := recByte x 0 1, kind := recByte x 1 1, etype := recByte x 2 2, vlan := recByte x 4 2, ecpriId := recByte x 6 2,
      queue := recByte x 8 2, slotLog2 := recByte x 10 1, slots := recByte x 12 2, ringBase := recByte x 16 8, n := 0,
      part := p }

/-- The rules in the table, with their numbers. -/
def State.ruleList (s : State) : List (Nat × Rule) :=
  s.qe.rules.filterMap fun e => e.2.map fun r => (e.1, r)

/-- RULE_ADD of image x: which free number it takes is a free choice. -/
def State.addRule (s : State) (p : Nat) (x : Rec64) : Nat × Nat × State :=
  match ruleOf p x with
  | none => (rParameter, 0, s)
  | some r =>
    if !(r.kind = 0 || r.kind = 2 || r.kind = 5 || r.kind = 0xFE) || (r.kind = 0xFE && r.etype = 0x88F7) || 2 ^ 13 ≤ r.vlan
      then (rParameter, 0, s)
    else if (s.queue r.queue).state ≠ .free && (s.queue r.queue).owner.toNat ≠ p then (rNotOwned, 0, s)
    else if !s.ruleShape r then (rParameter, 0, s)
    else if !s.ruleRing r then (rNotOwned, 0, s)
    else
      let l := s.ruleList
      if 32768 ≤ l.length then (rQuota, 0, s)
      else if l.any fun e => e.2.sameKey r then (rInUse, 0, s)
      else
        let f := s.fresh
        let i := nthFree (l.map Prod.fst) (f.1.toNat % (32768 - l.length))
        (rDone, i, { f.2 with qe := { f.2.qe with rules := tabSet none f.2.qe.rules i (some r) } })

def State.cmdRuleDel (s : State) (p : Nat) (e : Rec64) : Nat × Nat × State :=
  let i := recByte e 4 2
  match tabGet none s.qe.rules i with
  | none => (rParameter, 0, s)
  | some r =>
    if r.part ≠ p then (rNotOwned, 0, s)
    else (rDone, 0, { s with qe := { s.qe with rules := tabSet none s.qe.rules i none } })

/-! ## Level 1 registers (12 R376) -/

/-- A write of L1_EN, L1_DEFER, L1_HOLDg or L1_CTL of position w, numbered as L1CFG numbers them. -/
def State.l1Write (s : State) (w reg v : Nat) : State :=
  let x := s.l1 w
  if reg = 0 then s.setL1 w { x with en := BitVec.ofNat 64 v }
  else if reg = 1 then s.setL1 w { x with defer := BitVec.ofNat 64 v }
  else if reg ≤ 9 then s.setL1 w { x with hold := tabSet 0 x.hold (reg - 2) (v % 2 ^ 16) }
  else s.setL1 w { x with gdis := bitOf v 0 }

def State.cmdL1cfg (s : State) (p : Nat) (e : Rec64) : Nat × Nat × State :=
  let k := recByte e 6 1
  let reg := recByte e 7 1
  if 10 < reg then (rParameter, 0, s)
  else if !s.ownSpindle p k then (rNotOwned, 0, s)
  else (rDone, 0, if s.oos k then s else s.l1Write (s.posOf k) reg (recByte e 8 8))

/-! ## The command ring (R438 to R440) -/

/-- The unused bytes of a command are 0. Each command uses bytes 0, 2 and 3, and [4, b) or [8, 16) as given. -/
def cmdClean (e : Rec64) (used : List Nat) : Bool :=
  (List.range 64).all fun i => i = 0 || i = 2 || i = 3 || used.contains i || recByte e i 1 = 0

def cmdBytes (op : Nat) : List Nat :=
  match op with
  | 1 => [4, 5, 6, 7, 8, 9, 10, 11]
  | 2 => [4, 5]
  | 3 => [4, 5, 6, 7]
  | 4 => [4, 5, 6, 7, 8]
  | 5 => [4, 5, 6, 7]
  | 6 => [4, 5, 6, 7]
  | 7 => [4, 5, 8, 9, 10, 11, 12, 13, 14, 15]
  | 8 => [8, 9, 10, 11, 12, 13, 14, 15]
  | 9 => [4, 5]
  | _ => [6, 7, 8, 9, 10, 11, 12, 13, 14, 15]

/-- A command that the governor performs at once: RESULT, DETAIL and the state. -/
def State.cmdNow (s : State) (p op : Nat) (e : Rec64) : Nat × Nat × State :=
  match op with
  | 1 => s.cmdQcreate p e
  | 2 => s.cmdQdelete p e
  | 3 => s.cmdQgroup p e
  | 4 => s.cmdQnote p e
  | 5 => s.cmdQmsix p e
  | 6 => s.cmdQegress p e
  | 9 => s.cmdRuleDel p e
  | 10 => s.cmdL1cfg p e
  | _ => (rParameter, 0, s)

/-- A command may be read: the governor takes commands one at a time, so none while an image read is outstanding (R440). -/
def State.csqReady (s : State) (p : Nat) : Bool := s.ringReady p 2 && s.hostReads.isEmpty

/-- Read one entry of partition p's command ring. PRICKING and RULE_ADD start the read of their image, which is no part of the
ring and so takes the PF (R430); its answer is promised an entry (R435). -/
def State.csqEntry (s : State) (p : Nat) (e : Rec64) : State :=
  let op := recByte e 0 1
  let tag := recByte e 2 2
  let s := s.ringTake p 2
  if !cmdClean e (cmdBytes op) then (s.redeem p 3).ccqAnswer p op tag rParameter 0
  else if op = 7 || op = 8 then
    let s : State := { s with hostReads := s.hostReads ++ [⟨p, op, tag, recByte e 4 2, recByte e 8 8⟩] }
    s.send (.hostRead 16 (s.hostAddr 16 (recByte e 8 8)) (if op = 7 then 64 else 32))
  else
    let r := s.cmdNow p op e
    (r.2.2.redeem p 3).ccqAnswer p op tag r.1 r.2.1

/-- A QCREATE or a QDELETE on a queue whose region is scrubbed: the scrub holds it (06 R215), and the governor takes the entry when
the scrub has ended. -/
def State.csqHeld (s : State) (p : Nat) (e : Rec64) : Bool :=
  let q := recByte e 4 2
  (recByte e 0 1 = 1 && (s.region p).scrubbing) || (recByte e 0 1 = 2 && s.regionHolds q)

/-- Take the entry when it holds the named command. -/
def State.csqTake (s : State) (p op : Nat) (e : Rec64) : State :=
  if s.csqReady p && !s.csqHeld p e && recByte e 0 1 = op then s.csqEntry p e else s

/-- QCREATE takes an entry whose OP is 1, or no OP of Table 15-6. -/
def execQcreate (p : PartId) (entry : Rec64) (s : State) : Host.Outcome State Fault Refusal :=
  let op := recByte entry 0 1
  .next (if s.csqReady p.toNat && !s.csqHeld p.toNat entry && (op < 2 || 10 < op) then s.csqEntry p.toNat entry else s)

def execQdelete (p : PartId) (entry : Rec64) (s : State) : Host.Outcome State Fault Refusal := .next (s.csqTake p.toNat 2 entry)
def execQgroup (p : PartId) (entry : Rec64) (s : State) : Host.Outcome State Fault Refusal := .next (s.csqTake p.toNat 3 entry)
def execQnote (p : PartId) (entry : Rec64) (s : State) : Host.Outcome State Fault Refusal := .next (s.csqTake p.toNat 4 entry)
def execQmsix (p : PartId) (entry : Rec64) (s : State) : Host.Outcome State Fault Refusal := .next (s.csqTake p.toNat 5 entry)
def execQegress (p : PartId) (entry : Rec64) (s : State) : Host.Outcome State Fault Refusal := .next (s.csqTake p.toNat 6 entry)
def execPricking (p : PartId) (entry : Rec64) (s : State) : Host.Outcome State Fault Refusal := .next (s.csqTake p.toNat 7 entry)
def execRuleAdd (p : PartId) (entry : Rec64) (s : State) : Host.Outcome State Fault Refusal := .next (s.csqTake p.toNat 8 entry)
def execRuleDel (p : PartId) (entry : Rec64) (s : State) : Host.Outcome State Fault Refusal := .next (s.csqTake p.toNat 9 entry)
def execL1cfg (p : PartId) (entry : Rec64) (s : State) : Host.Outcome State Fault Refusal := .next (s.csqTake p.toNat 10 entry)

/-! ## Completions of host reads (R434, R439) -/

/-- The image of the waiting command arrives, or its read failed. -/
def State.imageDone (s : State) (h : HostRead) (data : Option Rec64) : State :=
  let s := { s.redeem h.part 3 with hostReads := s.hostReads.drop 1 }
  let r : Nat × Nat × State := match data with
    | none => (rHostError, 0, s)
    | some x =>
      if h.op = 7 then
        let w := s.writePricking h.part h.index x
        (w.1, 0, w.2)
      else s.addRule h.part (BitVec.ofNat 512 (fld x.toNat 0 256))
  r.2.2.ccqAnswer h.part h.op h.tag r.1 r.2.1

/-- A read of a ring entry failed: ERR is set and the ring is read no further (R434). -/
def State.ringFail (s : State) (p r : Nat) : State := s.setRing p r { s.ring p r with err := true, stopped := true }

/-- A translation enters the cache of 1,024 entries; which one of a full cache goes is a free choice (R427). -/
def State.translate (s : State) (fn page dst : Nat) : State :=
  let v := s.fresh
  let l := s.ats.filter fun e => !(e.1 = fn && e.2.1 = page)
  { v.2 with ats := (fn, page, dst) :: (if 1024 ≤ l.length then l.eraseIdx (v.1.toNat % 1024) else l) }

/-- HOST_READ_COMPLETION. Tag bits [3:0] name the partition, bits [5:4] the read: 0 an ARQ entry, 2 a CSQ entry, 1 the image
of the command that waits, 3 a translation of the function (bit 6: the PF), whose page and translated page stand in bytes 0 to 15
(DESIGN CHOICE, log entry 84). In FAULT the governor answers nothing (17 R504). -/
def State.hostCompletion (s : State) (tag : Nat) (data : Option Rec64) : State :=
  let p := fld tag 0 4
  match fld tag 4 2 with
  | 0 =>
    if !s.ringReady p 0 then s
    else match data with
      | some e => s.arqEntry p e
      | none => s.ringFail p 0
  | 2 =>
    if !s.csqReady p || (data.any fun e => s.csqHeld p e) then s
    else match data with
      | some e => s.csqEntry p e
      | none => s.ringFail p 2
  | 1 =>
    match s.hostReads with
    | h :: _ => if h.part = p && s.node ≠ .fault then s.imageDone h data else s
    | [] => s
  | _ =>
    match data with
    | some e => if s.rst.perstLow then s else s.translate (if bitOf tag 6 then 16 else p) (recByte e 0 8 / 4096) (recByte e 8 8 / 4096)
    | none => s

def execHostReadCompletion (tag : Half) (data : Option Rec64) (s : State) : Host.Outcome State Fault Refusal :=
  .next (s.hostCompletion tag.toNat data)

/-! ## Spindle doorbells (R441) -/

def State.spindleDoorbell (s : State) (p k : Nat) : State := if s.ownSpindle p k then s.l1EventAt k 1 else s

def execSpindleDoorbell (p : PartId) (k : Spindle) (s : State) : Host.Outcome State Fault Refusal :=
  .next (if s.hostUp then s.spindleDoorbell p.toNat k.toNat else s)

end Sys2Proof.Machine
end

