-- ==== Sys2Proof/Machine/Flags.lean ====
section
/-! DEFINITION. The flags of FSTAT and VFSTAT (03 Table 3-6, 08 Table 8-3) and the fitting of integer results (03 R115). -/

namespace Sys2Proof.Machine
open Sys2Proof

def fNV : Nat := 1
def fDZ : Nat := 2
def fOF : Nat := 4
def fUF : Nat := 8
def fNX : Nat := 16
def fSAT : Nat := 32
def fPSN : Nat := 64
def fSUBF : Nat := 128

/-- The OR of two flag sets. -/
def orF (a b : Nat) : Nat := a ||| b

def flagIf (b : Bool) (f : Nat) : Nat := if b then f else 0

/-- rne(x ÷ 2^q): divide by 2^q and round to nearest, ties to even (R115). -/
def rneShift (x : Int) (q : Nat) : Int :=
  if q = 0 then x
  else
    let d : Int := 2 ^ q
    let fl := x.fdiv d
    let r := x - fl * d
    if 2 * r < d then fl else if d < 2 * r then fl + 1 else if fl % 2 = 0 then fl else fl + 1

/-- Range of a w-bit integer type. -/
def intLo (w : Nat) (signed : Bool) : Int := if signed then -(2 ^ (w - 1) : Int) else 0
def intHi (w : Nat) (signed : Bool) : Int := if signed then (2 ^ (w - 1) : Int) - 1 else (2 ^ w : Int) - 1

/-- Fit an exact value to a w-bit integer destination (R115): its bits, and the SAT flag when a clamp changed it. -/
def fitInt (w : Nat) (signed sat : Bool) (x : Int) : Nat × Nat :=
  if sat then
    if x < intLo w signed then ((intLo w signed % 2 ^ w).toNat, fSAT)
    else if intHi w signed < x then ((intHi w signed % 2 ^ w).toNat, fSAT)
    else ((x % 2 ^ w).toNat, 0)
  else ((x % 2 ^ w).toNat, 0)

end Sys2Proof.Machine
end

