-- ==== Sys2Proof/Machine/Float.lean ====
section
/-! DEFINITION. Floating-point arithmetic, bit for bit (10 R320 to R337): every operation forms its exact value and
rounds it once. -/

namespace Sys2Proof.Machine
open Sys2Proof

/-- A format: exponent and fraction bits (Table 10-1). -/
structure Fmt where
  eb : Nat
  fb : Nat
deriving DecidableEq, Repr

def fF16 : Fmt := ⟨5, 10⟩
def fBF16 : Fmt := ⟨8, 7⟩
def fF32 : Fmt := ⟨8, 23⟩
def fF64 : Fmt := ⟨11, 52⟩

def Fmt.bias (f : Fmt) : Nat := 2 ^ (f.eb - 1) - 1
/-- Exponent of the smallest normal, and of the largest finite value. -/
def Fmt.emin (f : Fmt) : Int := 1 - f.bias
def Fmt.emax (f : Fmt) : Int := f.bias
def Fmt.infBits (f : Fmt) : Nat := (2 ^ f.eb - 1) * 2 ^ f.fb
def Fmt.maxBits (f : Fmt) : Nat := f.infBits - 1
/-- The default NaN (Table 10-2). -/
def Fmt.nanBits (f : Fmt) : Nat := f.infBits + 2 ^ (f.fb - 1)
def Fmt.signBit (f : Fmt) (neg : Bool) : Nat := if neg then 2 ^ (f.eb + f.fb) else 0
def Fmt.width (f : Fmt) : Nat := f.eb + f.fb + 1

/-- A decoded value: finite values are ±m × 2^e. -/
inductive FVal where
  | nan
  | inf (neg : Bool)
  | fin (neg : Bool) (m : Nat) (e : Int)
deriving DecidableEq, Repr

/-- Rounding mode and subnormal settings in force (Tables 3-5 and 8-3); sat: the destination's SAT. -/
structure FEnv where
  rm : Nat
  fzi : Bool
  fzo : Bool
  strap : Bool
  sat : Bool := false
deriving DecidableEq, Repr

/-- The environment a control register names: RM [1:0], FZI [2], FZO [3], STRAP [4]. -/
def envOf (ctl : DWord) (sat : Bool) : FEnv :=
  { rm := bvFld ctl 0 2, fzi := ctl.getLsbD 2, fzo := ctl.getLsbD 3, strap := ctl.getLsbD 4, sat := sat }

/-- A result: bits, flags, and whether the operation stops under STRAP (R326). -/
structure FRes where
  bits : Nat
  flags : Nat := 0
  tiny : Bool := false
deriving DecidableEq, Repr

/-- An input: its value after FZI (R324), its flags (SUBF; NV for a signalling NaN, R328), and whether it is subnormal. -/
structure FIn where
  val : FVal
  flags : Nat
  sub : Bool
  snan : Bool
deriving DecidableEq, Repr

/-- Number of bits of m. -/
def bitLen (m : Nat) : Nat := if m = 0 then 0 else Nat.log2 m + 1

/-- Read an operand of format f (R321, R324). -/
def fIn (f : Fmt) (env : FEnv) (x : Nat) : FIn :=
  let neg := bitOf x (f.eb + f.fb)
  let e := fld x f.fb f.eb
  let m := fld x 0 f.fb
  if e = 2 ^ f.eb - 1 then
    if m = 0 then ⟨.inf neg, 0, false, false⟩
    else
      let s := !bitOf m (f.fb - 1)
      ⟨.nan, flagIf s fNV, false, s⟩
  else if e = 0 then
    if m = 0 then ⟨.fin neg 0 0, 0, false, false⟩
    else if env.fzi then ⟨.fin neg 0 0, fSUBF, true, false⟩
    else ⟨.fin neg m (f.emin - f.fb), 0, true, false⟩
  else ⟨.fin neg (m + 2 ^ f.fb) ((e : Int) - f.bias - f.fb), 0, false, false⟩

/-- Does rounding mode rm increase the magnitude q when the discarded part is rem of d (d a power of two)? -/
def roundUp (rm : Nat) (neg : Bool) (q rem d : Nat) : Bool :=
  match rm with
  | 0 => decide (d < 2 * rem) || (2 * rem = d && q % 2 = 1)
  | 1 => false
  | 2 => rem ≠ 0 && !neg
  | _ => rem ≠ 0 && neg

/-- m × 2^e in units of 2^u, rounded: the magnitude and whether it is inexact. -/
def quantize (rm : Nat) (neg : Bool) (m : Nat) (e u : Int) : Nat × Bool :=
  if u ≤ e then (m * 2 ^ (e - u).toNat, false)
  else
    let d := 2 ^ (u - e).toNat
    let q := m / d
    let r := m % d
    (if roundUp rm neg q r d then q + 1 else q, r ≠ 0)

/-- Deliver ±m × 2^e (m ≠ 0) in format f (R322, R323, R325). inex: the exact value was already inexact (R332). -/
def fRound (f : Fmt) (env : FEnv) (neg : Bool) (m : Nat) (e : Int) (inex : Bool := false) : FRes :=
  let sgn := f.signBit neg
  let u : Int := e + bitLen m - (f.fb + 1)
  let q := quantize env.rm neg m e u
  -- the unbounded rounding may carry into the next binade
  let top : Int := if bitLen q.1 = f.fb + 2 then u + f.fb + 1 else u + f.fb
  let nx := q.2 || inex
  if top < f.emin then
    if env.fzo then { bits := sgn, flags := fUF + fNX + fSUBF, tiny := true }
    else
      let r := quantize env.rm neg m e (f.emin - f.fb)
      let nx := r.2 || inex
      { bits := sgn + r.1, flags := flagIf nx (fUF + fNX), tiny := true }
  else if f.emax < top then
    let big := (env.rm = 1) || (env.rm = 2 && neg) || (env.rm = 3 && !neg)
    if env.sat then { bits := sgn + f.maxBits, flags := fOF + fNX + fSAT }
    else { bits := sgn + (if big then f.maxBits else f.infBits), flags := fOF + fNX }
  else
    let frac := if bitLen q.1 = f.fb + 2 then 0 else q.1 - 2 ^ f.fb
    { bits := sgn + (top + f.bias).toNat * 2 ^ f.fb + frac, flags := flagIf nx fNX }

/-- Deliver a value. -/
def fOut (f : Fmt) (env : FEnv) (v : FVal) (inex : Bool := false) : FRes :=
  match v with
  | .nan => { bits := f.nanBits }
  | .inf neg => { bits := f.signBit neg + f.infBits }
  | .fin neg m e => if m = 0 then { bits := f.signBit neg } else fRound f env neg m e inex

def FVal.isNan : FVal → Bool
  | .nan => true
  | _ => false
def FVal.neg' : FVal → FVal
  | .nan => .nan
  | .inf n => .inf !n
  | .fin n m e => .fin (!n) m e
def FVal.isNeg : FVal → Bool
  | .nan => false
  | .inf n => n
  | .fin n _ _ => n

/-- The exact product, and NV for 0 × ∞ (R328). -/
def fMulV (a b : FVal) : FVal × Nat :=
  match a, b with
  | .nan, _ => (.nan, 0)
  | _, .nan => (.nan, 0)
  | .inf n, .inf k => (.inf (n != k), 0)
  | .inf n, .fin k m _ => if m = 0 then (.nan, fNV) else (.inf (n != k), 0)
  | .fin n m _, .inf k => if m = 0 then (.nan, fNV) else (.inf (n != k), 0)
  | .fin n m e, .fin k m' e' => (.fin (n != k) (m * m') (e + e'), 0)

/-- The exact sum of several terms, with the sign of an exact zero (R323), and NV for ∞ − ∞. -/
def fSumV (rm : Nat) (ts : List FVal) : FVal × Nat :=
  let pinf := ts.any fun t => t = .inf false
  let ninf := ts.any fun t => t = .inf true
  if ts.any FVal.isNan then (.nan, 0)
  else if pinf && ninf then (.nan, fNV)
  else if pinf then (.inf false, 0)
  else if ninf then (.inf true, 0)
  else
    let lo : Int := ts.foldl (fun a t => match t with | .fin _ m e => if m = 0 then a else min a e | _ => a) 0
    let sum : Int := ts.foldl (fun a t => match t with
      | .fin n m e => if m = 0 then a else a + (if n then -1 else 1) * ((m * 2 ^ (e - lo).toNat : Nat) : Int)
      | _ => a) 0
    if sum = 0 then
      let zeros := ts.all fun t => match t with | .fin _ m _ => m = 0 | _ => false
      let allNeg := ts.all FVal.isNeg
      let allPos := ts.all fun t => !t.isNeg
      (.fin (if zeros && allNeg then true else if zeros && allPos then false else rm = 3) 0 0, 0)
    else (.fin (decide (sum < 0)) sum.natAbs lo, 0)

/-- Collect the inputs' flags with a result; under STRAP a subnormal input or a tiny result stops (R326). none: stop. -/
def fFinish (env : FEnv) (ins : List FIn) (extra : Nat) (r : FRes) : Option FRes :=
  if env.strap && (r.tiny || ins.any FIn.sub) then none
  else some { r with flags := (ins.foldl (fun a i => orF a i.flags) (orF extra r.flags)) }

/-- Σ of products of inputs, each term a product of one or two inputs with a sign: rounded once into format f. -/
def fDot (f : Fmt) (env : FEnv) (ins : List FIn) (terms : List (Bool × List FVal)) : Option FRes :=
  let ps := terms.map fun t =>
    let p : FVal × Nat := match t.2 with
      | [a] => (a, 0)
      | [a, b] => fMulV a b
      | _ => (.fin false 0 0, 0)
    (if t.1 then p.1.neg' else p.1, p.2)
  let sm := fSumV env.rm (ps.map Prod.fst)
  let nv := ps.foldl (fun a p => orF a p.2) sm.2
  fFinish env ins nv (fOut f env sm.1)

def fAdd (f : Fmt) (env : FEnv) (a b : FIn) : Option FRes := fDot f env [a, b] [(false, [a.val]), (false, [b.val])]
def fSub (f : Fmt) (env : FEnv) (a b : FIn) : Option FRes := fDot f env [a, b] [(false, [a.val]), (true, [b.val])]
def fMul (f : Fmt) (env : FEnv) (a b : FIn) : Option FRes :=
  let p := fMulV a.val b.val
  fFinish env [a, b] p.2 (fOut f env p.1)
/-- ±(a × b) ± c, fused. -/
def fMa (f : Fmt) (env : FEnv) (negP negC : Bool) (a b c : FIn) : Option FRes :=
  fDot f env [a, b, c] [(negP, [a.val, b.val]), (negC, [c.val])]

/-- Division (R328): the quotient carries a last bit that says whether a remainder is left. -/
def fDiv (f : Fmt) (env : FEnv) (a b : FIn) : Option FRes :=
  let r : FVal × Nat := match a.val, b.val with
    | .nan, _ => (.nan, 0)
    | _, .nan => (.nan, 0)
    | .inf _, .inf _ => (.nan, fNV)
    | .inf n, .fin k _ _ => (.inf (n != k), 0)
    | .fin n _ _, .inf k => (.fin (n != k) 0 0, 0)
    | .fin n m e, .fin k m' e' =>
      if m' = 0 then (if m = 0 then (.nan, fNV) else (.inf (n != k), fDZ))
      else if m = 0 then (.fin (n != k) 0 0, 0)
      else
        let sh := bitLen m' + f.fb + 4
        let q := m * 2 ^ sh / m'
        let rm := m * 2 ^ sh % m'
        (.fin (n != k) (2 * q + (if rm = 0 then 0 else 1)) (e - e' - sh - 1), 0)
  fFinish env [a, b] r.2 (fOut f env r.1)

/-- Integer square root, one binary digit at a time from 2^k down. -/
def isqrtFrom (n : Nat) : Nat → Nat → Nat
  | 0, r => r
  | k + 1, r => isqrtFrom n k (if (r + 2 ^ k) * (r + 2 ^ k) ≤ n then r + 2 ^ k else r)
def isqrt (n : Nat) : Nat := isqrtFrom n (Nat.log2 n / 2 + 1) 0

def fSqrt (f : Fmt) (env : FEnv) (a : FIn) : Option FRes :=
  let r : FVal × Nat := match a.val with
    | .nan => (.nan, 0)
    | .inf n => if n then (.nan, fNV) else (.inf false, 0)
    | .fin n m e =>
      if m = 0 then (.fin n 0 0, 0)
      else if n then (.nan, fNV)
      else
        let sh := 2 * (f.fb + 4) + (if e % 2 = 0 then 0 else 1)
        let x := m * 2 ^ sh
        let q := isqrt x
        (.fin false (2 * q + (if q * q = x then 0 else 1)) ((e - sh) / 2 - 1), 0)
  fFinish env [a] r.2 (fOut f env r.1)

/-- Order of two numbers, −0 below +0: negative, zero or positive difference. -/
def fCmpV (a b : FVal) : Int :=
  let key (v : FVal) : Int × Int := match v with
    | .nan => (0, 0)
    | .inf n => (if n then -2 else 2, 0)
    | .fin n m _ => if m = 0 then (0, if n then -1 else 1) else (if n then -1 else 1, 0)
  let ka := key a
  let kb := key b
  if ka.1 ≠ kb.1 then ka.1 - kb.1
  else match a, b with
    | .fin n m e, .fin _ m' e' =>
      if m = 0 then ka.2 - kb.2
      else
        let lo := min e e'
        let d : Int := ((m * 2 ^ (e - lo).toNat : Nat) : Int) - ((m' * 2 ^ (e' - lo).toNat : Nat) : Int)
        if n then -d else d
    | _, _ => 0

/-- Numeric comparison: zeros of either sign are equal. -/
def fNumCmp (a b : FVal) : Int :=
  match a, b with
  | .fin _ m _, .fin _ m' _ => if m = 0 && m' = 0 then 0 else fCmpV a b
  | _, _ => fCmpV a b

/-- minimumNumber and maximumNumber (03 R121). -/
def fMinMax (f : Fmt) (env : FEnv) (mx : Bool) (a b : FIn) : Option FRes :=
  let v : FVal := match a.val.isNan, b.val.isNan with
    | true, true => .nan
    | true, false => b.val
    | false, true => a.val
    | false, false =>
      let c := fCmpV a.val b.val
      if (if mx then decide (c < 0) else decide (0 < c)) then b.val else a.val
  fFinish env [a, b] 0 (fOut f env v)

/-- Comparisons (03 R121): kind 0 EQ, 1 NE, 2 LT, 3 LE, 4 UN. LT and LE are signalling. bits is 1 for true. -/
def fCompare (env : FEnv) (kind : Nat) (a b : FIn) : Option FRes :=
  let un := a.val.isNan || b.val.isNan
  let c := fNumCmp a.val b.val
  let t : Bool := match kind with
    | 0 => !un && c = 0
    | 1 => un || c ≠ 0
    | 2 => !un && decide (c < 0)
    | 3 => !un && decide (c ≤ 0)
    | _ => un
  fFinish env [a, b] (flagIf (un && (kind = 2 || kind = 3)) fNV) { bits := b2n t }

/-- Conversion to a w-bit integer (03 R121): rounded by RM; NaN gives 0 and a value out of range the nearest end, with
NV. -/
def fToInt (w : Nat) (signed : Bool) (env : FEnv) (a : FIn) : Option FRes :=
  let wrap (x : Int) : Nat := (x % 2 ^ w).toNat
  let r : FRes := match a.val with
    | .nan => { bits := 0, flags := fNV }
    | .inf n => { bits := wrap (if n then intLo w signed else intHi w signed), flags := fNV }
    | .fin n m e =>
      let q := quantize env.rm n m e 0
      let x : Int := if n then -(q.1 : Int) else q.1
      if x < intLo w signed then { bits := wrap (intLo w signed), flags := fNV }
      else if intHi w signed < x then { bits := wrap (intHi w signed), flags := fNV }
      else { bits := wrap x, flags := flagIf q.2 fNX }
  fFinish env [a] 0 r

/-- Conversion of an integer to format f. -/
def fOfInt (f : Fmt) (env : FEnv) (x : Int) : FRes := fOut f env (.fin (decide (x < 0)) x.natAbs 0)

/-- An input in a format that holds it exactly, without FZO: the exact conversions of VRSUM (03 R125), and a widening. -/
def fExact (dst : Fmt) (env : FEnv) (a : FIn) : Option FRes := fFinish env [a] 0 (fOut dst { env with fzo := false } a.val)

/-- Conversion between formats (Table 10-6): a widening one is exact and FZO cannot apply. -/
def fConv (src dst : Fmt) (env : FEnv) (a : FIn) : Option FRes :=
  if src.fb ≤ dst.fb && src.eb ≤ dst.eb && src ≠ dst then fExact dst env a else fFinish env [a] 0 (fOut dst env a.val)

/-- rne of a quotient that is never a tie (R331). -/
def rneDiv (n d : Nat) : Nat := (2 * n + d) / (2 * d)

/-- VRCP (R331, R332, 03 R123): nearest even whatever RM is. -/
def fRcp (f : Fmt) (env : FEnv) (a : FIn) : Option FRes :=
  let env' := { env with rm := 0 }
  let r : FRes := match a.val with
    | .nan => { bits := f.nanBits }
    | .inf n => { bits := f.signBit n }
    | .fin n m e =>
      if m = 0 then { bits := f.signBit n + f.infBits, flags := fDZ }
      else
        let l := bitLen m
        let fr := fld (m * 2 ^ 8) l 7
        let k := rneDiv 131072 (257 + 2 * fr) - 256
        fRound f env' n (256 + k) (-(e + l - 1) - 1 - 8) true
  fFinish env [a] 0 r

/-- VRSQRT (R331, R332, 03 R123). -/
def fRsqrt (f : Fmt) (env : FEnv) (a : FIn) : Option FRes :=
  let env' := { env with rm := 0 }
  let r : FRes := match a.val with
    | .nan => { bits := f.nanBits }
    | .inf n => if n then { bits := f.nanBits, flags := fNV } else { bits := 0 }
    | .fin n m e =>
      if m = 0 then { bits := f.signBit n + f.infBits, flags := fDZ }
      else if n then { bits := f.nanBits, flags := fNV }
      else
        let l := bitLen m
        let ex : Int := e + l - 1
        let g := fld (m * 2 ^ 8) (l + 1) 6
        let p := (ex % 2).toNat
        let c := 129 + 2 * g
        let t := isqrt (4 * (if p = 0 then 33554432 else 16777216) / c)
        let k := (t + 1) / 2 - 256
        fRound f env' false (256 + k) (-1 - (ex - p) / 2 - 8) true
  fFinish env [a] 0 r

end Sys2Proof.Machine
end

