-- ==== Sys2Proof/Machine/Elem.lean ====
section
/-! DEFINITION. Element types and the functions of one element, shared by long vector operations, short vectors and the
scalar core (03 R108, R119 to R123, R128, 10 R330). Elements are numbers of the type's width. A function answers the
result's bits and flags, or none where STRAP stops it (10 R326). -/

namespace Sys2Proof.Machine
open Sys2Proof

/-- Bytes of an element (Table 3-2); MASK is one bit and answers 0. -/
def tySize (t : Nat) : Nat :=
  match t with
  | 0 | 1 => 1
  | 2 | 3 | 8 | 9 => 2
  | 4 | 5 | 10 | 12 | 13 => 4
  | 6 | 7 | 11 | 14 | 15 => 8
  | 0x11 => 64
  | _ => 0

def tyWidth (t : Nat) : Nat := 8 * tySize t
def tyInt (t : Nat) : Bool := t ≤ 7
def tySigned (t : Nat) : Bool := t % 2 = 1
/-- FLT: F16, BF16 and F32; F64 too on short vectors (08 R294). -/
def tyFlt (t : Nat) : Bool := 8 ≤ t && t ≤ 11
def tyCpx (t : Nat) : Bool := 12 ≤ t && t ≤ 15
def tyMask (t : Nat) : Bool := t = 0x10

def tyFmt (t : Nat) : Fmt :=
  match t with
  | 8 => fF16
  | 9 => fBF16
  | 10 => fF32
  | 11 => fF64
  | 13 => fF16
  | _ => fF32

/-- A complex type's components are floating-point. -/
def tyCpxFlt (t : Nat) : Bool := t = 13 || t = 14
/-- Width of a complex component. -/
def tyCompWidth (t : Nat) : Nat := tyWidth t / 2

/-- The integer an element of an integer type holds. -/
def tyVal (t x : Nat) : Int := if tySigned t then sextNat (tyWidth t) x else ((x % 2 ^ tyWidth t : Nat) : Int)

/-- Result of an element function: bits and flags. -/
abbrev ERes := Option (Nat × Nat)

def eOfF (r : Option FRes) : ERes := r.map fun x => (x.bits, x.flags)
def eFit (t : Nat) (env : FEnv) (x : Int) : ERes := some (fitInt (tyWidth t) (tySigned t) env.sat x)

/-- Join the two components of a complex result. -/
def eJoin (w : Nat) (re im : ERes) : ERes :=
  match re, im with
  | some a, some b => some (a.1 % 2 ^ w + b.1 * 2 ^ w, orF a.2 b.2)
  | _, _ => none

def cRe (t x : Nat) : Nat := x % 2 ^ tyCompWidth t
def cIm (t x : Nat) : Nat := x / 2 ^ tyCompWidth t % 2 ^ tyCompWidth t
/-- An integer complex component's value. -/
def cVal (t x : Nat) : Int := sextNat (tyCompWidth t) x
/-- Fit an integer complex component. -/
def cFit (t : Nat) (env : FEnv) (x : Int) : ERes := some (fitInt (tyCompWidth t) true env.sat x)

/-- a + b, or a − b (R120, R121, R122). -/
def eAddSub (sub : Bool) (t : Nat) (env : FEnv) (a b : Nat) : ERes :=
  let sg (x : Int) : Int := if sub then -x else x
  if tyInt t then eFit t env (tyVal t a + sg (tyVal t b))
  else if tyFlt t then
    let f := tyFmt t
    eOfF ((if sub then fSub else fAdd) f env (fIn f env a) (fIn f env b))
  else
    let w := tyCompWidth t
    let comp (x y : Nat) : ERes :=
      if tyCpxFlt t then
        let f := tyFmt t
        eOfF ((if sub then fSub else fAdd) f env (fIn f env x) (fIn f env y))
      else cFit t env (cVal t x + sg (cVal t y))
    eJoin w (comp (cRe t a) (cRe t b)) (comp (cIm t a) (cIm t b))

/-- a × b with QSHIFT q (R120). -/
def eMul (t : Nat) (env : FEnv) (q a b : Nat) : ERes :=
  if tyInt t then eFit t env (rneShift (tyVal t a * tyVal t b) q)
  else
    let f := tyFmt t
    eOfF (fMul f env (fIn f env a) (fIn f env b))

/-- Fused forms: kind 0 VFMA a×b + c, 1 VFMS a×b − c, 2 VFNMA c − a×b (R120, R121). -/
def eFma (kind t : Nat) (env : FEnv) (q a b c : Nat) : ERes :=
  if tyInt t then
    let p := rneShift (tyVal t a * tyVal t b) q
    eFit t env (match kind with
      | 0 => p + tyVal t c
      | 1 => p - tyVal t c
      | _ => tyVal t c - p)
  else
    let f := tyFmt t
    eOfF (fMa f env (kind = 2) (kind = 1) (fIn f env a) (fIn f env b) (fIn f env c))

/-- VMIN, VMAX (R121). -/
def eMinMax (mx : Bool) (t : Nat) (env : FEnv) (a b : Nat) : ERes :=
  if tyInt t then
    let lt := decide (tyVal t a < tyVal t b)
    some (if (if mx then decide (tyVal t b < tyVal t a) else lt) then a else b, 0)
  else
    let f := tyFmt t
    eOfF (fMinMax f env mx (fIn f env a) (fIn f env b))

/-- |a|: on floating-point types only the sign bit changes (10 R321). -/
def eAbs (t : Nat) (env : FEnv) (a : Nat) : ERes :=
  if tyInt t then eFit t env (if tyVal t a < 0 then -tyVal t a else tyVal t a)
  else some (a % 2 ^ (tyWidth t - 1), 0)

/-- −a. -/
def eNeg (t : Nat) (env : FEnv) (a : Nat) : ERes :=
  let flip (w x : Nat) : Nat := if bitOf x (w - 1) then x - 2 ^ (w - 1) else x + 2 ^ (w - 1)
  if tyInt t then eFit t env (-tyVal t a)
  else if tyFlt t then some (flip (tyWidth t) a, 0)
  else
    let w := tyCompWidth t
    let comp (x : Nat) : ERes := if tyCpxFlt t then some (flip w x, 0) else cFit t env (-cVal t x)
    eJoin w (comp (cRe t a)) (comp (cIm t a))

/-- VCVT from type ta to type td (Table 10-6). -/
def eCvt (ta td : Nat) (env : FEnv) (a : Nat) : ERes :=
  if tyInt ta then
    if tyInt td then eFit td env (tyVal ta a)
    else
      let r := fOfInt (tyFmt td) env (tyVal ta a)
      some (r.bits, r.flags)
  else if tyFlt ta then
    if tyInt td then eOfF (fToInt (tyWidth td) (tySigned td) env (fIn (tyFmt ta) env a))
    else eOfF (fConv (tyFmt ta) (tyFmt td) env (fIn (tyFmt ta) env a))
  else
    let comp (x : Nat) : ERes :=
      if ta = 12 then
        if td = 12 then cFit td env (cVal ta x)
        else
          let r := fOfInt (tyFmt td) env (cVal ta x)
          if env.strap && r.tiny then none else some (r.bits, r.flags)
      else if td = 12 then eOfF (fToInt 16 true env (fIn (tyFmt ta) env x))
      else eOfF (fConv (tyFmt ta) (tyFmt td) env (fIn (tyFmt ta) env x))
    eJoin (tyCompWidth td) (comp (cRe ta a)) (comp (cIm ta a))

/-- Shifts by b[7:0]: kind 0 VSHL, 1 VSHR, 2 VSRA (R120). -/
def eShift (kind t : Nat) (env : FEnv) (a b : Nat) : ERes :=
  let n := b % 256
  let w := tyWidth t
  match kind with
  | 0 => if env.sat then eFit t env (tyVal t a * 2 ^ n) else some (if w ≤ n then 0 else a * 2 ^ n % 2 ^ w, 0)
  | 1 => some (a % 2 ^ w / 2 ^ n, 0)
  | _ => some ((sextNat w a / 2 ^ n % 2 ^ w).toNat, 0)

/-- Complex multiply and multiply-accumulate into type td (R122): conj negates b's imaginary part. -/
def eCmul (conj : Bool) (ta td : Nat) (env : FEnv) (q a b : Nat) (c : Option Nat) : ERes :=
  let w := tyCompWidth td
  if tyCpxFlt ta then
    let f := tyFmt ta
    let ar := fIn f env (cRe ta a)
    let ai := fIn f env (cIm ta a)
    let br := fIn f env (cRe ta b)
    let bi := fIn f env (cIm ta b)
    let bv := if conj then bi.val.neg' else bi.val
    let ci (x : Nat) : List FIn := match c with | some v => [fIn f env (if x = 0 then cRe ta v else cIm ta v)] | none => []
    let term (l : List FIn) : List (Bool × List FVal) := l.map fun i => (false, [i.val])
    eJoin w
      (eOfF (fDot f env ([ar, ai, br, bi] ++ ci 0) ([(false, [ar.val, br.val]), (true, [ai.val, bv])] ++ term (ci 0))))
      (eOfF (fDot f env ([ar, ai, br, bi] ++ ci 1) ([(false, [ar.val, bv]), (false, [ai.val, br.val])] ++ term (ci 1))))
  else
    let ar := cVal ta (cRe ta a)
    let ai := cVal ta (cIm ta a)
    let br := cVal ta (cRe ta b)
    let bi := if conj then -cVal ta (cIm ta b) else cVal ta (cIm ta b)
    let ad (x : Nat) : Int := match c with | some v => cVal td (if x = 0 then cRe td v else cIm td v) | none => 0
    eJoin w (cFit td env (rneShift (ar * br - ai * bi) q + ad 0)) (cFit td env (rneShift (ar * bi + ai * br) q + ad 1))

/-- VWMUL and VWMAC: the exact product, and sum, in the wider type td (R120, R121). -/
def eWmul (ta td : Nat) (env : FEnv) (a b : Nat) (c : Option Nat) : ERes :=
  if tyInt ta then eFit td env (tyVal ta a * tyVal ta b + (match c with | some v => tyVal td v | none => 0))
  else if tyFlt ta then
    let x := fIn (tyFmt ta) env a
    let y := fIn (tyFmt ta) env b
    match c with
    | none =>
      let p := fMulV x.val y.val
      eOfF (fFinish env [x, y] p.2 (fOut (tyFmt td) env p.1))
    | some v => eOfF (fMa (tyFmt td) env false false x y (fIn (tyFmt td) env v))
  else eCmul false ta td env 0 a b c

/-- A dot product of the lists of source elements, plus c (R120, R121). -/
def eDot (ta tb td : Nat) (env : FEnv) (as bs : List Nat) (c : Nat) : ERes :=
  if tyInt ta then
    eFit td env (((as.zip bs).map fun p => tyVal ta p.1 * tyVal tb p.2).foldl (· + ·) (tyVal td c))
  else
    let xs := (as.zip bs).map fun p => (fIn (tyFmt ta) env p.1, fIn (tyFmt tb) env p.2)
    let z := fIn (tyFmt td) env c
    eOfF (fDot (tyFmt td) env (xs.foldl (fun l p => l ++ [p.1, p.2]) [z])
      ((xs.map fun p => (false, [p.1.val, p.2.val])) ++ [(false, [z.val])]))

/-- Comparisons: kind 0 EQ, 1 NE, 2 LT, 3 LE, 4 UN; the answer is one bit (R121, R122). -/
def eCmp (kind t : Nat) (env : FEnv) (a b : Nat) : ERes :=
  if tyInt t then
    let x := tyVal t a
    let y := tyVal t b
    some (b2n (match kind with
      | 0 => decide (x = y)
      | 1 => decide (x ≠ y)
      | 2 => decide (x < y)
      | _ => decide (x ≤ y)), 0)
  else if tyFlt t then
    let f := tyFmt t
    eOfF (fCompare env kind (fIn f env a) (fIn f env b))
  else
    let comp (x y : Nat) : ERes :=
      if tyCpxFlt t then eOfF (fCompare env 0 (fIn (tyFmt t) env x) (fIn (tyFmt t) env y)) else some (b2n (x = y), 0)
    match comp (cRe t a) (cRe t b), comp (cIm t a) (cIm t b) with
    | some p, some q => some (let e := p.1 * q.1; if kind = 0 then e else 1 - e, orF p.2 q.2)
    | _, _ => none

/-- Logic: kind 0 AND, 1 OR, 2 XOR, 3 AND NOT, 4 NOT, in w bits. -/
def eLogic (kind w a b : Nat) : Nat :=
  let ones := 2 ^ w - 1
  match kind with
  | 0 => a &&& b
  | 1 => a ||| b
  | 2 => a ^^^ b
  | 3 => a &&& (b ^^^ ones)
  | _ => a ^^^ ones

/-- VPERMB of one element of n bytes (R128). -/
def ePermb (n sel a : Nat) : Nat :=
  natOfBytes ((List.range n).map fun j =>
    let k := fld sel (4 * j) 4
    if bitOf k 3 then 0 else BitVec.ofNat 8 (fld a (8 * (k % 8)) 8))

end Sys2Proof.Machine
end

