-- ==== Sys2Proof/Machine/ParsalInt.lean ====
section
/-! DEFINITION. Integer instructions and control transfer of Parsal (08 R276 to R283, 09 R304). -/

namespace Sys2Proof.Machine
open Sys2Proof

def execIntegerAlu (c : CoreId) (w : Word) (s : State) : Host.Outcome State Fault Refusal := .next (s.wordInstr c w)

/-- Table 8-7 majors 0x01 to 0x06 (R277). -/
def immOp (op : ImmOp) (a : DWord) (imm : Half) : DWord :=
  let sx : DWord := imm.signExtend 64
  let zx : DWord := imm.setWidth 64
  match op with
  | .addi => a + sx
  | .andi => a &&& zx
  | .ori => a ||| zx
  | .xori => a ^^^ zx
  | .clti => allOnes64 (a.slt sx)
  | .cltui => allOnes64 (a.ult sx)

def execAddi (c : CoreId) (op : ImmOp) (rd rs1 : RegId) (imm : Half) (s : State) : Host.Outcome State Fault Refusal :=
  .next (s.issue c [rd, rs1] fun s => s.result c rd (immOp op (s.g c rs1) imm))

/-- Major 0x07: H32 with an amount of 32 or more is illegal (R277). -/
def wShift (kind : BitVec 2) (h32 : Bool) (rd rs1 : RegId) (amt : BitVec 6) : Word :=
  wImm 7 rd rs1 (kind.toNat * 2 ^ 14 + b2n h32 * 2 ^ 13 + amt.toNat)

def execShli (c : CoreId) (kind : BitVec 2) (h32 : Bool) (rd rs1 : RegId) (amt : BitVec 6) (s : State) :
    Host.Outcome State Fault Refusal :=
  .next (s.issue c [rd, rs1] fun s =>
    if h32 && 32 ≤ amt.toNat then s.raiseWord c 1 (wShift kind h32 rd rs1 amt)
    else s.result c rd ((if h32 then shift32 else shift64) kind.toNat (s.g c rs1) amt.toNat))

def execLiZ (c : CoreId) (rd : RegId) (h : BitVec 2) (imm : Half) (s : State) : Host.Outcome State Fault Refusal :=
  .next (s.issue c [rd] fun s => s.result c rd (BitVec.ofNat 64 (imm.toNat * 2 ^ (16 * h.toNat))))

def execLiK (c : CoreId) (rd : RegId) (h : BitVec 2) (imm : Half) (s : State) : Host.Outcome State Fault Refusal :=
  .next (s.issue c [rd] fun s => s.result c rd (bvSet (s.g c rd) (16 * h.toNat) 16 imm.toNat))

def execAddpc (c : CoreId) (rd : RegId) (imm : BitVec 21) (s : State) : Host.Outcome State Fault Refusal :=
  .next (s.issue c [rd] fun s => s.result c rd (s.pc c + imm.signExtend 64 * 4))

def mulFunc : MulOp → Nat
  | .mul => 0
  | .mulxSS => 1
  | .mulxUU => 2
  | .mulxSU => 3
  | .mul32 => 4

def mulPair : MulOp → Bool
  | .mul | .mul32 => false
  | _ => true

def execMul (c : CoreId) (op : MulOp) (rd rs1 rs2 : RegId) (s : State) : Host.Outcome State Fault Refusal :=
  .next (s.issue c (if mulPair op then [rd, rd + 1, rs1, rs2] else [rd, rs1, rs2]) fun s =>
    let p := mulOp op (s.g c rs1) (s.g c rs2)
    if mulPair op then
      if pairOk rd then s.resultPair c rd p.1 p.2 else s.raiseWord c 1 (wReg 0x0A rd rs1 rs2 0 (mulFunc op))
    else s.result c rd p.1)

def dqrFunc : DqrOp → Nat
  | .dqrS => 8
  | .dqrU => 9
  | .dqr32S => 10
  | .dqr32U => 11

/-- An operation in flight holds the integer divider (div), or the divide and square-root unit (09 R303). -/
def Core.unitBusy (c : Core) (u : ResUnit) : Bool := c.results.any fun r => r.unit = u && r.busy

/-- DQR (R278, R304): the divider takes one operation at a time; the pair is written when DQR_RESULT completes it. -/
def execDqr (c : CoreId) (op : DqrOp) (rd rs1 rs2 : RegId) (s : State) : Host.Outcome State Fault Refusal :=
  .next (s.issue c [rd, rd + 1, rs1, rs2] fun s =>
    if !pairOk rd then s.raiseWord c 1 (wReg 0x0A rd rs1 rs2 0 (dqrFunc op))
    else if (s.core c).unitBusy .divider then s
    else
      let p := dqrOp op (s.g c rs1) (s.g c rs2)
      (s.advance c).modCore c fun x =>
        { x with results := x.results ++ [{ unit := .divider, busy := true, writes := [(rd, p.1), (rd + 1, p.2)], flags := 0 }] })

/-- The divide in flight writes its pair (R304). -/
def execDqrResult (c : CoreId) (s : State) : Host.Outcome State Fault Refusal :=
  .next (match (s.core c).results.find? fun r => r.unit = .divider with
    | none => s
    | some r => s.modCore c fun x => { x with cpu := x.cpu.complete r, results := x.results.erase r })

def execBfx (c : CoreId) (kind : BitVec 2) (rd rs1 : RegId) (lenM1 pos : BitVec 6) (s : State) :
    Host.Outcome State Fault Refusal :=
  .next (s.issue c [rd, rs1] fun s =>
    if kind = 3 || 64 < pos.toNat + (lenM1.toNat + 1) then
      s.raiseWord c 1 (wImm 0x0B rd rs1 (kind.toNat * 2 ^ 14 + lenM1.toNat * 2 ^ 6 + pos.toNat))
    else s.result c rd (bfOp kind.toNat (s.g c rs1) (s.g c rd) (lenM1.toNat + 1) pos.toNat))

def execPermb (c : CoreId) (rd rs1 rs2 : RegId) (s : State) : Host.Outcome State Fault Refusal :=
  .next (s.issue c [rd, rs1, rs2] fun s => s.result c rd (permb (s.g c rs1) (s.g c rs2)))

/-! ## Control transfer (R281) -/

/-- PC plus a displacement in words. -/
def State.target (s : State) (k : Nat) (d : DWord) : DWord := s.pc k + d * 4

def branchCc : BranchOp → Nat
  | .eq => 0
  | .ne => 1
  | .lt => 2
  | .ge => 3
  | .lo => 4
  | .hs => 5

def execBranch (c : CoreId) (op : BranchOp) (rs1 rs2 : RegId) (disp : Half) (s : State) :
    Host.Outcome State Fault Refusal :=
  .next (s.issue c [rs1, rs2] fun s =>
    if condHolds (branchCc op) (s.g c rs1) (s.g c rs2) then s.setPc c (s.target c (disp.signExtend 64)) else s.advance c)

def execJmp (c : CoreId) (disp : BitVec 26) (s : State) : Host.Outcome State Fault Refusal :=
  .next (s.issue c [] fun s => s.setPc c (s.target c (disp.signExtend 64)))

def execCall (c : CoreId) (disp : BitVec 26) (s : State) : Host.Outcome State Fault Refusal :=
  .next (s.issue c [31] fun s => (s.setG c 31 (s.pc c + 4)).setPc c (s.target c (disp.signExtend 64)))

/-- JR: a target that is not a multiple of 4 raises No-Execute with EPC and EADDR at the target; the link is written
(R281). -/
def execJr (c : CoreId) (rd rs1 : RegId) (imm : Half) (s : State) : Host.Outcome State Fault Refusal :=
  .next (s.issue c [rd, rs1] fun s =>
    let t := s.g c rs1 + imm.signExtend 64 * 4
    let s := (s.setG c rd (s.pc c + 4)).setPc c t
    if bvFld t 0 2 = 0 then s else s.takeException c 4 t t)

/-- The word of a SKIP (R282). -/
def wSkip : SkipForm → Word
  | .cmp cc rs1 rs2 => BitVec.ofNat 32 (0x0C * 2 ^ 26 + cc.toNat * 2 ^ 22 + rs1.toNat * 2 ^ 16 + rs2.toNat * 2 ^ 11)
  | .bit cc rs1 n => BitVec.ofNat 32 (0x0D * 2 ^ 26 + cc.toNat * 2 ^ 22 + rs1.toNat * 2 ^ 16 + n.toNat * 2 ^ 10)

/-- The condition of a SKIP, none for an illegal cc (R282). -/
def skipCond (f : SkipForm) (s : State) (k : Nat) : Option Bool :=
  match f with
  | .cmp cc rs1 rs2 => if cc.toNat ≤ 5 then some (condHolds cc.toNat (s.g k rs1) (s.g k rs2)) else none
  | .bit cc rs1 n => if cc.toNat ≤ 1 then some ((s.g k rs1).getLsbD n.toNat = (cc.toNat = 1)) else none

def skipRegs : SkipForm → List RegId
  | .cmp _ a b => [a, b]
  | .bit _ a _ => [a]

/-- SKIP.cc (R283): when the condition holds, ST.SK is set. -/
def execSkipCc (c : CoreId) (f : SkipForm) (s : State) : Host.Outcome State Fault Refusal :=
  .next (s.issue c (skipRegs f) fun s =>
    match skipCond f s c with
    | none => s.raiseWord c 1 (wSkip f)
    | some b => s.modCpu c fun u => { u with st := if b then u.st ||| 16 else u.st, pc := u.pc + 4 })

end Sys2Proof.Machine
end

