-- ==== Sys2Proof/Machine/ParsalFp.lean ====
section
/-! DEFINITION. Scalar floating point of Parsal (08 R292, R293, 09 R303, R305). -/

namespace Sys2Proof.Machine
open Sys2Proof

/-- FCTL as it reads: FZI and FZO read 1 and STRAP 0 where the mode forces them (08 R268). -/
def State.fctlReg (s : State) (k : Nat) : DWord :=
  let c := (s.cpu k).fctl
  if k < 128 && s.flushForced k then BitVec.ofNat 64 (bvFld c 0 2 + 12) else c

def State.fpEnv (s : State) (k : Nat) (sat : Bool) : FEnv := envOf (s.fctlReg k) sat

/-- Table 8-15: operation k in format P on the register values; the answer is rd's value and the flags. -/
def fpOp (k : Nat) (dbl : Bool) (env : FEnv) (a b : DWord) : Option (Nat × Nat) :=
  let f := if dbl then fF64 else fF32
  let o := if dbl then fF32 else fF64
  let x := a.toNat % 2 ^ f.width
  let y := b.toNat % 2 ^ f.width
  let ia := fIn f env x
  let ib := fIn f env y
  let cmp (kind : Nat) : Option (Nat × Nat) :=
    (fCompare env kind ia ib).map fun r => (if r.bits = 1 then 2 ^ 64 - 1 else 0, r.flags)
  let sgn (neg : Bool) : Nat := x % 2 ^ (f.width - 1) + (if neg then 2 ^ (f.width - 1) else 0)
  match k with
  | 0 => eOfF (fAdd f env ia ib)
  | 1 => eOfF (fSub f env ia ib)
  | 2 => eOfF (fMul f env ia ib)
  | 3 => eOfF (fDiv f env ia ib)
  | 4 => eOfF (fSqrt f env ia)
  | 5 => eOfF (fMinMax f env false ia ib)
  | 6 => eOfF (fMinMax f env true ia ib)
  | 7 => cmp 0
  | 8 => cmp 2
  | 9 => cmp 3
  | 10 => some (sgn (bitOf y (f.width - 1)), 0)
  | 11 => some (sgn (!bitOf y (f.width - 1)), 0)
  | 12 => eOfF (fToInt 64 true env ia)
  | 13 => eOfF (fToInt 64 false env ia)
  | 14 => let r := fOfInt f env a.toInt; some (r.bits, r.flags)
  | 15 => let r := fOfInt f env a.toNat; some (r.bits, r.flags)
  | _ => eOfF (fConv o f env (fIn o env (a.toNat % 2 ^ o.width)))

/-- Issue a floating-point operation whose value is known: Subnormal Trap when it stops (R293); with STRAP = 1 it
completes at once (09 R305), else FP_RESULT completes it. -/
def State.fpIssue (s : State) (k : Nat) (rd : RegId) (slow : Bool) (strap : Bool) (r : Option (Nat × Nat)) : State :=
  match r with
  | none => s.takeException k 0x0B (s.pc k) 0
  | some v =>
    if slow && (s.core k).unitBusy .float then s
    else
      let p : PendRes := { unit := .float, busy := slow, writes := [(rd, BitVec.ofNat 64 v.1)], flags := BitVec.ofNat 8 v.2 }
      (s.advance k).modCore k fun x =>
        if strap then { x with cpu := x.cpu.complete p } else { x with results := x.results ++ [p] }

def execFloatingPoint (c : CoreId) (k : BitVec 5) (dbl : Bool) (rd rs1 rs2 : RegId) (s : State) :
    Host.Outcome State Fault Refusal :=
  .next (s.issue c [rd, rs1, rs2] fun s =>
    if 16 < k.toNat || (k = 4 && rs2 ≠ 0) then s.raiseWord c 1 (wReg 0x30 rd rs1 rs2 0 (2 * k.toNat + b2n dbl))
    else
      let env := s.fpEnv c false
      s.fpIssue c rd (k = 3 || k = 4) env.strap (fpOp k.toNat dbl env (s.g c rs1) (s.g c rs2)))

def execFfma (c : CoreId) (kind : BitVec 2) (dbl : Bool) (rd rs1 rs2 rs3 : RegId) (s : State) :
    Host.Outcome State Fault Refusal :=
  .next (s.issue c [rd, rs1, rs2, rs3] fun s =>
    if kind = 3 then s.raiseWord c 1 (wReg 0x31 rd rs1 rs2 rs3.toNat (2 * kind.toNat + b2n dbl))
    else
      let env := s.fpEnv c false
      let t := if dbl then 11 else 10
      let low (r : RegId) : Nat := (s.g c r).toNat % 2 ^ tyWidth t
      s.fpIssue c rd false env.strap (eFma kind.toNat t env 0 (low rs1) (low rs2) (low rs3)))

/-- The oldest floating-point operation in flight that writes rd completes (09 R303). -/
def execFpResult (c : CoreId) (rd : RegId) (s : State) : Host.Outcome State Fault Refusal :=
  .next (match (s.core c).results.find? fun r => r.unit = .float && r.writes.any fun w => w.1 = rd with
    | none => s
    | some r => s.modCore c fun x => { x with cpu := x.cpu.complete r, results := x.results.erase r })

end Sys2Proof.Machine
end

