-- ==== Sys2Proof/Machine/ParsalVec.lean ====
section
/-! DEFINITION. Short-vector arithmetic and SETVL (03 R144 to R149, 08 R294, R295). Elements are counted in the
destination; sources are read before any element is written. -/

namespace Sys2Proof.Machine
open Sys2Proof

def svLen (svl : DWord) : Nat := bvFld svl 0 8
def svType (svl : DWord) : Nat := bvFld svl 8 5
/-- f = 2^PLY registers in a ply (Table 3-14). -/
def svPly (svl : DWord) : Nat := 2 ^ bvFld svl 13 2

/-- The vector of f registers from vN, as one number. -/
def Cpu.plyGet (c : Cpu) (n f : Nat) : Nat :=
  (List.range f).foldl (fun a j => a + (c.vget (n + j)).toNat * 2 ^ (128 * j)) 0

/-- Write f registers from vN. -/
def Cpu.plySet (c : Cpu) (n f x : Nat) : Cpu :=
  (List.range f).foldl (fun c j => c.vset (n + j) (BitVec.ofNat 128 (fld x (128 * j) 128))) c

/-- Element i of width w. -/
def elGet (x i w : Nat) : Nat := fld x (i * w) w
def elSet (x i w v : Nat) : Nat := setFld x (i * w) w v

/-- A register operand of ply f names vN with N mod f = 0 (R146). -/
def plyOk (r : RegId) (f : Nat) : Bool := r.toNat % f = 0 && r.toNat + f ≤ 32

/-- Elements i to n − 1 in order: the vector built so far, the flags, and the element that stopped, if one did. -/
def svRun (g : Nat → ERes) (w : Nat) : Nat → Nat → Nat → Nat → Nat × Nat × Option Nat
  | 0, _, acc, fl => (acc, fl, none)
  | m + 1, i, acc, fl =>
    match g i with
    | none => (acc, fl, some i)
    | some r => svRun g w m (i + 1) (elSet acc i w r.1) (orF fl r.2)

/-- Run an elementwise short-vector instruction into ply fd of vd: n elements of width w, from VSTART. A stop under
STRAP leaves VSTART at the element and raises Subnormal Trap (08 R296, 10 R326). -/
def State.svExec (s : State) (k : Nat) (vd : RegId) (fd n w : Nat) (g : Nat → ERes) : State :=
  let c := s.cpu k
  let i := bvFld c.vstart 0 8
  let r := svRun g w (n - i) i (c.plyGet vd.toNat fd) 0
  let s := s.modCpu k fun u =>
    { u.plySet vd.toNat fd r.1 with
      fstat := u.fstat ||| BitVec.ofNat 64 r.2.1
      vstart := match r.2.2 with | none => 0 | some j => BitVec.ofNat 64 j }
  match r.2.2 with
  | none => s.advance k
  | some _ => s.takeException k 0x0B (s.pc k) 0

/-- Compares of short vectors write all ones in the element width (Table 8-16). -/
def svMask (w : Nat) (r : ERes) : ERes := r.map fun x => (if x.1 = 1 then 2 ^ w - 1 else 0, x.2)

/-- The types R119 allows for functions 0x00 to 0x15 of Table 8-16. -/
def svTypeOk (func t : Nat) : Bool :=
  let int := tyInt t
  let flt := tyFlt t
  let sgn := tyInt t && tySigned t
  match func with
  | 0x00 | 0x01 | 0x0E | 0x0F => int || flt || t = 12
  | 0x02 | 0x03 | 0x10 | 0x11 => int || flt
  | 0x04 => sgn || flt
  | 0x05 => sgn || flt || t = 12
  | 0x06 | 0x07 | 0x08 | 0x09 | 0x0A | 0x0B | 0x0C | 0x12 => int
  | 0x0D => sgn
  | 0x13 => int || flt || t = 12
  | 0x14 | 0x15 => true
  | _ => false

/-- Element i of va (and vb) under function func, type t (Table 8-16); VCVT goes to type td. -/
def svAlu (func t td : Nat) (env : FEnv) (a b : Nat) : ERes :=
  let w := tyWidth t
  match func with
  | 0x00 => eAddSub false t env a b
  | 0x01 => eAddSub true t env a b
  | 0x02 => eMinMax false t env a b
  | 0x03 => eMinMax true t env a b
  | 0x04 => eAbs t env a
  | 0x05 => eNeg t env a
  | 0x06 => some (eLogic 0 w a b, 0)
  | 0x07 => some (eLogic 1 w a b, 0)
  | 0x08 => some (eLogic 2 w a b, 0)
  | 0x09 => some (eLogic 3 w a b, 0)
  | 0x0A => some (eLogic 4 w a b, 0)
  | 0x0B => eShift 0 t env a b
  | 0x0C => eShift 1 t env a b
  | 0x0D => eShift 2 t env a b
  | 0x0E => svMask w (eCmp 0 t env a b)
  | 0x0F => svMask w (eCmp 1 t env a b)
  | 0x10 => svMask w (eCmp 2 t env a b)
  | 0x11 => svMask w (eCmp 3 t env a b)
  | 0x12 => some (clzNat w a, 0)
  | _ => eCvt t td env a

/-- Word of major 0x32. -/
def wSv (func : BitVec 6) (sat : Bool) (vd va vb : RegId) : Word := wReg 0x32 vd va vb (16 * b2n sat) func.toNat

/-- R294 and R146: what makes a word of major 0x32 illegal under the SVL in force. A VCVT from C16 to C16 is legal (DESIGN
CHOICE: Table 3-9 does not say whether a complex type converts to itself). -/
def svAluIllegal (svl : DWord) (func : Nat) (vd va vb : RegId) : Bool :=
  let t := svType svl
  let f := svPly svl
  let td := vb.toNat
  let ok :=
    match func with
    | 0x04 | 0x05 => vb = 0 && plyOk vd f && plyOk va f
    | 0x0A | 0x12 => plyOk vd f && plyOk va f
    | 0x13 =>
      let fd := max 1 (f * tySize td / tySize t)
      decide (td ≤ 12) && plyOk va f && decide (fd ≤ 8) && plyOk vd fd &&
        (if t = 12 then td = 12 else td ≠ 12)
    | 0x14 => plyOk vd f
    | 0x15 => plyOk va f
    | _ => plyOk vd f && plyOk va f && plyOk vb f
  !(svTypeOk func t && ok)

def execShortVectorAlu (c : CoreId) (func : BitVec 6) (sat : Bool) (vd va vb : RegId) (s : State) :
    Host.Outcome State Fault Refusal :=
  .next (s.issue c (if func = 0x14 then [va] else if func = 0x15 then [vd, vb] else []) fun s =>
    let u := s.cpu c
    let t := svType u.svl
    let f := svPly u.svl
    let n := svLen u.svl
    let w := tyWidth t
    if svAluIllegal u.svl func.toNat vd va vb then s.raiseWord c 1 (wSv func sat vd va vb)
    else
      let env := s.fpEnv c sat
      let a := u.plyGet va.toNat f
      let b := u.plyGet vb.toNat f
      if func = 0x15 then
        let i := (u.get vb).toNat
        let x := elGet a i w
        let v : DWord := if n ≤ i then 0 else if tyInt t && tySigned t then sext64 w x else BitVec.ofNat 64 x
        (s.setG c vd v).modCpu c fun u => { u with vstart := 0, pc := u.pc + 4 }
      else if func = 0x14 then s.svExec c vd f n w fun _ => some ((u.get va).toNat % 2 ^ w, 0)
      else if func = 0x13 then
        let td := vb.toNat
        s.svExec c vd (max 1 (f * tySize td / tySize t)) n (tyWidth td) fun i => eCvt t td env (elGet a i w)
      else s.svExec c vd f n w fun i => svAlu func.toNat t 0 env (elGet a i w) (elGet b i w))

/-- The wide type of a widening operation (Table 3-9, VWMUL), if it has one. -/
def tyWide (t : Nat) : Option Nat :=
  match t with
  | 0 => some 2
  | 1 => some 3
  | 2 => some 4
  | 3 => some 5
  | 8 => some 10
  | 12 => some 15
  | _ => none

/-- What makes a word of major 0x33 illegal under the SVL in force (R295, R146). -/
def svMulIllegal (svl : DWord) (func qshift : Nat) (vd va vb : RegId) : Bool :=
  let t := svType svl
  let f := svPly svl
  let regs := plyOk va f && plyOk vb f
  let ok :=
    match func with
    | 0 | 1 | 2 | 3 => (tyInt t || tyFlt t) && regs && plyOk vd f
    | 4 | 5 => (tyWide t).isSome && decide (f ≤ 4) && regs && plyOk vd (2 * f)
    | 6 => decide (t ≤ 1) && regs && plyOk vd f
    | 7 => (t = 3 || t = 9) && regs && plyOk vd f
    | 8 | 9 | 10 | 11 => t = 12 && regs && plyOk vd f
    | _ => false
  !(ok && !(tyFlt t && qshift ≠ 0))

def execShortVectorMultiply (c : CoreId) (func : BitVec 4) (qshift : BitVec 6) (sat : Bool) (vd va vb : RegId)
    (s : State) : Host.Outcome State Fault Refusal :=
  .next (s.issue c [] fun s =>
    let u := s.cpu c
    let t := svType u.svl
    let f := svPly u.svl
    let n := svLen u.svl
    let w := tyWidth t
    let q := qshift.toNat
    if svMulIllegal u.svl func.toNat q vd va vb then
      s.raiseWord c 1 (wReg 0x33 vd va vb 0 (q * 32 + b2n sat * 16 + func.toNat))
    else
      let env := s.fpEnv c sat
      let a := u.plyGet va.toNat f
      let b := u.plyGet vb.toNat f
      let d := u.plyGet vd.toNat f
      let group (x m i : Nat) : List Nat := (List.range m).map fun j => if m * i + j < n then elGet x (m * i + j) w else 0
      match func.toNat with
      | 0 => s.svExec c vd f n w fun i => eMul t env q (elGet a i w) (elGet b i w)
      | 1 => s.svExec c vd f n w fun i => eFma 0 t env q (elGet a i w) (elGet b i w) (elGet d i w)
      | 2 => s.svExec c vd f n w fun i => eFma 1 t env q (elGet a i w) (elGet b i w) (elGet d i w)
      | 3 => s.svExec c vd f n w fun i => eFma 2 t env q (elGet a i w) (elGet b i w) (elGet d i w)
      | 4 =>
        let td := (tyWide t).getD 0
        s.svExec c vd (2 * f) n (2 * w) fun i => eWmul t td env (elGet a i w) (elGet b i w) none
      | 5 =>
        let td := (tyWide t).getD 0
        let dd := u.plyGet vd.toNat (2 * f)
        s.svExec c vd (2 * f) n (2 * w) fun i => eWmul t td env (elGet a i w) (elGet b i w) (some (elGet dd i (2 * w)))
      | 6 =>
        s.svExec c vd f (ceilDiv n 4) 32 fun i =>
          eDot t t (if t = 1 then 5 else 4) env (group a 4 i) (group b 4 i) (elGet d i 32)
      | 7 =>
        s.svExec c vd f (ceilDiv n 2) 32 fun i =>
          eDot t t (if t = 3 then 5 else 10) env (group a 2 i) (group b 2 i) (elGet d i 32)
      | 8 => s.svExec c vd f n w fun i => eCmul false t t env q (elGet a i w) (elGet b i w) none
      | 9 => s.svExec c vd f n w fun i => eCmul true t t env q (elGet a i w) (elGet b i w) none
      | 10 => s.svExec c vd f n w fun i => eCmul false t t env q (elGet a i w) (elGet b i w) (some (elGet d i w))
      | _ => s.svExec c vd f n w fun i => eCmul true t t env q (elGet a i w) (elGet b i w) (some (elGet d i w)))

/-- SETVL (R145). -/
def execSetvl (c : CoreId) (rd rs1 : RegId) (ty : RegId) (ply : BitVec 2) (s : State) :
    Host.Outcome State Fault Refusal :=
  .next (s.issue c [rd, rs1] fun s =>
    if 0x0C < ty.toNat then s.raiseWord c 1 (wImm 0x35 rd rs1 (ty.toNat * 2 ^ 11 + ply.toNat * 2 ^ 9))
    else
      let cap := 128 * 2 ^ ply.toNat / tyWidth ty.toNat
      let n := min (s.g c rs1).toNat cap
      s.modCpu c fun u =>
        { u.set rd (BitVec.ofNat 64 n) with
          svl := BitVec.ofNat 64 (n + ty.toNat * 2 ^ 8 + ply.toNat * 2 ^ 13)
          vstart := 0
          pc := u.pc + 4 })

end Sys2Proof.Machine
end

