-- ==== Sys2Proof/Machine/ParsalSys.lean ====
section
/-! DEFINITION. System instructions of Parsal: special registers, synchronisation, exceptions by instruction, return,
waiting, and the end of a skein (08 R267, R274, R290, Table 8-13, 09 R313, 12 R354, R363 to R365). -/

namespace Sys2Proof.Machine
open Sys2Proof

/-- CORE_ID (Table 8-1). -/
def State.coreId (s : State) (k : Nat) : DWord :=
  if k < 128 then
    let p := match s.partOf k with | some p => p | none => Config.noPartition k % 16
    BitVec.ofNat 64 (k + p * 2 ^ 16)
  else BitVec.ofNat 64 (k - 128 + 2 ^ 15)

/-- Table 8-1 lists special register n. -/
def srListed (n : Nat) : Bool := n ≤ 5 || (8 ≤ n && n ≤ 11) || (0x10 ≤ n && n ≤ 0x20)

/-- U may read it. -/
def srUserRead (n : Nat) : Bool := n = 0 || 8 ≤ n
/-- U may write it, or the write is to a register that no level writes (Table 8-1, R354). -/
def srUserWrite (n : Nat) : Bool := 8 ≤ n && n ≤ 11 || n = 0x20

/-- Read special register n. -/
def State.srRead (s : State) (k n : Nat) : DWord :=
  let c := s.cpu k
  match n with
  | 0 => s.stReg k
  | 1 => c.epc
  | 2 => c.est
  | 3 => c.ecause
  | 4 => c.eaddr
  | 5 => c.vbase
  | 8 => c.fstat
  | 9 => s.fctlReg k
  | 10 => c.svl
  | 11 => c.vstart
  | 0x20 => s.coreId k
  | _ => if n < 0x18 then tabGet 0 c.sgb (n - 0x10) else tabGet 0 c.sgl (n - 0x18)

/-- Write special register n: RO fields keep their value (R267). -/
def State.srWrite (s : State) (k n : Nat) (v : DWord) : State :=
  s.modCpu k fun c =>
    match n with
    | 0 =>
      let st := bvSet c.st 2 1 (bvFld v 2 1)
      { c with st := if k < 128 && s.inM4 k then st else bvSet st 3 1 (bvFld v 3 1) }
    | 1 => { c with epc := v }
    | 2 => { c with est := v }
    | 5 => { c with vbase := v &&& ~~~0x1F00 }
    | 8 => { c with fstat := v &&& 0xBF }
    | 9 => { c with fctl := if k < 128 && s.flushForced k then bvSet c.fctl 0 2 (bvFld v 0 2) else v &&& 0x1F }
    | 11 => { c with vstart := v &&& 0xFF }
    | _ =>
      if 0x10 ≤ n && n < 0x18 then { c with sgb := tabSet 0 c.sgb (n - 0x10) v }
      else if 0x18 ≤ n && n < 0x20 then { c with sgl := tabSet 0 c.sgl (n - 0x18) (v &&& 0xFFFFFFFFFFFFF) }
      else c

/-- A floating-point operation is in flight (Table 9-3). -/
def Core.fpBusy (c : Core) : Bool := c.results.any fun r => r.unit = .float

def wSr (f : Nat) (rd rs1 : RegId) (sr : BitVec 10) : Word :=
  BitVec.ofNat 32 (0x2E * 2 ^ 26 + rd.toNat * 2 ^ 21 + rs1.toNat * 2 ^ 16 + sr.toNat * 2 ^ 6 + f)

def execMfsr (c : CoreId) (rd : RegId) (sr : BitVec 10) (s : State) : Host.Outcome State Fault Refusal :=
  .next (s.issue c [rd] fun s =>
    let n := sr.toNat
    if !srListed n then s.raiseWord c 1 (wSr 8 rd 0 sr)
    else if (s.cpu c).pl = 0 && !srUserRead n then s.raiseWord c 2 (wSr 8 rd 0 sr)
    else if n = 8 && (s.core c).fpBusy then s
    else s.result c rd (s.srRead c n))

def execMtsr (c : CoreId) (rs1 : RegId) (sr : BitVec 10) (s : State) : Host.Outcome State Fault Refusal :=
  .next (s.issue c [rs1] fun s =>
    let n := sr.toNat
    if !srListed n then s.raiseWord c 1 (wSr 9 0 rs1 sr)
    else if (s.cpu c).pl = 0 && !srUserWrite n then s.raiseWord c 2 (wSr 9 0 rs1 sr)
    else if (n = 8 || n = 9) && (s.core c).fpBusy then s
    else (s.srWrite c n (s.g c rs1)).advance c)

/-- Every write response of core k's posted stores has arrived (09 R312): none has failed, and none waits at HBM. -/
def State.storesDone (s : State) (k : Nat) : Bool :=
  (s.core k).failed.isEmpty && (s.reqs k).all fun r => !(r.src = .core && r.write && !r.dropped && r.ctx = s.vCtx k)

/-- Every store has written and every write response has arrived (Table 8-13, 09 R312). -/
def State.quiet (s : State) (k : Nat) : Bool := (s.core k).storeBuf.isEmpty && s.storesDone k

def execSync (c : CoreId) (s : State) : Host.Outcome State Fault Refusal :=
  .next (s.issue c [] fun s => if s.quiet c then s.advance c else s)

/-- SYNC.I: SYNC, then the instruction cache and the line buffer are invalid (09 R307, R313). -/
def execSyncI (c : CoreId) (s : State) : Host.Outcome State Fault Refusal :=
  .next (s.issue c [] fun s =>
    if s.quiet c then
      (s.advance c).modCore c fun x => { x with icache := [], cpu := { x.cpu with lineBuf := none } }
    else s)

def wSys (f : Nat) : Word := BitVec.ofNat 32 (0x2E * 2 ^ 26 + f)

def execRetx (c : CoreId) (s : State) : Host.Outcome State Fault Refusal :=
  .next (s.issue c [] fun s =>
    let u := s.cpu c
    if u.pl = 0 then s.raiseWord c 2 (wSys 2)
    else if returnFaults c u.pl u.est then s.takeException c 0x0C u.epc (s.pc c)
    else s.returnX c)

def execScall (c : CoreId) (s : State) : Host.Outcome State Fault Refusal :=
  .next (s.issue c [] fun s => s.takeException c 0x09 (s.pc c) 0)

def execBrk (c : CoreId) (s : State) : Host.Outcome State Fault Refusal :=
  .next (s.issue c [] fun s => s.takeException c 0x0A (s.pc c) 0)

/-- WFI (Table 8-13): with a source pending and unmasked it ends at once; else the core waits after it. -/
def execWfi (c : CoreId) (s : State) : Host.Outcome State Fault Refusal :=
  .next (s.issue c [] fun s =>
    if (s.cpu c).pl = 0 then s.raiseWord c 2 (wSys 5)
    else
      let wake := s.wfiWake c
      let s := s.advance c
      if wake then s else s.modCore c fun x => { x with run := .wfi })

/-- Every VOP slot of a spindle is FREE or DONE (R290, 03 R142). -/
def Seqr.quiet (q : Seqr) : Bool := q.slots.all fun e => e.2.state = .free || e.2.state = .done

/-- The budget counter reached 0 in an earlier cycle (02 R85). -/
def Disp.overdue (d : Disp) : Bool :=
  match d.running with
  | some x => decide (0 < x.past)
  | none => false

/-- KEND (R290): in the cycle in which the budget counter reaches 0, or earlier, it ends the kernel (02 R85); it waits for
the slots and the write responses, then the commit is due. A kernel that ends while the sequencer is halted aborts with
FAULT (03 R142), also where the counter has reached 0 in that very cycle (DESIGN CHOICE, log entry 165). -/
def execKend (c : CoreId) (s : State) : Host.Outcome State Fault Refusal :=
  .next (s.issue c [] fun s =>
    if 128 ≤ c.val || (s.disp c).running.isNone then s.raiseWord c 1 (wSys 6)
    else if (s.disp c).overdue then s.modDisp c fun d => { d with stop := d.stop.orElse fun _ => some .overrun }
    else if (s.disp c).stop.isSome && (s.disp c).stop ≠ some .overrun then s
    else if (s.seqr c).halted then s.modDisp c fun d => { d with stop := some .fault }
    else if (s.seqr c).quiet && s.storesDone c then
      s.modDisp c fun d => { d with ending := true, stop := none }
    else s)

/-- KABORT (R87): the running skein will abort with FAULT; no instruction of it follows. -/
def execKabort (c : CoreId) (s : State) : Host.Outcome State Fault Refusal :=
  .next (s.issue c [] fun s =>
    if 128 ≤ c.val || (s.disp c).running.isNone then s.raiseWord c 1 (wSys 7)
    else if (s.cpu c).pl = 0 then s.raiseWord c 2 (wSys 7)
    else s.modDisp c fun d => { d with stop := some .fault })

end Sys2Proof.Machine
end

