-- ==== Sys2Proof/Machine/VopDesc.lean ====
section
/-! DEFINITION. Stream descriptors, the table of long vector operations, and the checks made at issue (03 R107 to R119,
R128, R129, R133, R134, Tables 3-1 to 3-9). -/

namespace Sys2Proof.Machine
open Sys2Proof

/-! ## Descriptors (Table 3-1) -/

/-- A stream descriptor register. -/
abbrev Desc := BitVec 128

def Desc.base (x : Desc) : Nat := bvFld x 0 48
def Desc.stride (x : Desc) : Int := sextNat 24 (bvFld x 48 24)
def Desc.ty (x : Desc) : Nat := bvFld x 72 5
def Desc.ctap (x : Desc) : Bool := x.getLsbD 80
def Desc.tapn (x : Desc) : Nat := bvFld x 81 3
/-- 0 SCRATCH, 1 HBM, 2 QUEUE, 3 NONE. -/
def Desc.region (x : Desc) : Nat := bvFld x 84 2
def Desc.sat (x : Desc) : Bool := x.getLsbD 86
/-- The writable fields (R20). -/
def descMask : BitVec 128 := BitVec.ofNat 128 (2 ^ 87 - 1 - 7 * 2 ^ 77)

/-- The operand touches memory. -/
def Desc.inMem (x : Desc) : Bool := x.region ≤ 1
/-- A source that reads memory. -/
def Desc.memSrc (x : Desc) : Bool := !x.ctap && x.inMem

/-- Address of the byte that holds element i (R109, Table 3-2 for MASK). -/
def Desc.addr (x : Desc) (i : Int) : Nat :=
  let a : Int := if tyMask x.ty then Int.ofNat x.base + i / 8 else Int.ofNat x.base + i * x.stride * Int.ofNat (tySize x.ty)
  (a % 2 ^ 48).toNat

/-- Bytes of an element in memory. -/
def memSize (t : Nat) : Nat := if tyMask t then 1 else tySize t

/-! ## Types of the operations (Table 3-9) -/

/-- A type a VOP may name (Table 3-2). -/
def vopType (t : Nat) : Bool := t ≤ 0x11 && t ≠ 11
def vFlt (t : Nat) : Bool := 8 ≤ t && t ≤ 10
def vSInt (t : Nat) : Bool := tyInt t && tySigned t

/-- The type combinations of Table 3-9 (R119); types of roles an operation does not use are ignored. -/
def vopTypesOk (opc d a b c : Nat) : Bool :=
  match opc with
  | 0x001 | 0x002 => (tyInt d || vFlt d || tyCpx d) && a = d && b = d
  | 0x003 | 0x007 | 0x008 => (tyInt d || vFlt d) && a = d && b = d
  | 0x004 | 0x005 | 0x006 => (tyInt d || vFlt d) && a = d && b = d && c = d
  | 0x009 => (vSInt d || vFlt d) && a = d
  | 0x00A => (vSInt d || vFlt d || tyCpx d) && a = d
  | 0x00B =>
    ((tyInt a || vFlt a) && (tyInt d || vFlt d)) ||
      ((a = 12 || a = 13 || a = 14) && (d = 12 || d = 13 || d = 14))
  | 0x00C | 0x00D => tyInt d && a = d && b = d
  | 0x00E => vSInt d && a = d && b = d
  | 0x020 | 0x021 => a = b && ((a = 12 && (d = 12 || d = 15)) || ((a = 13 || a = 14) && d = a))
  | 0x022 | 0x023 => a = b && c = d && ((a = 12 && (d = 12 || d = 15)) || ((a = 13 || a = 14) && d = a))
  | 0x030 => a = b && wide a d
  | 0x031 => a = b && wide a d && c = d
  | 0x038 => c = d && ((a = 1 && b = 1 && d = 5) || (a = 0 && b = 0 && d = 4) || (a = 1 && b = 0 && d = 5))
  | 0x039 => c = d && ((a = 3 && b = 3 && (d = 5 || d = 7)) || (a = 9 && b = 9 && d = 10))
  | 0x040 => (tyInt a && (d = a || d = (if tySigned a then 7 else 6))) || (vFlt a && (d = a || d = 10))
  | 0x041 | 0x042 => (tyInt d || vFlt d) && a = d
  | 0x043 => (vSInt d || vFlt d) && a = d
  | 0x044 | 0x045 | 0x046 | 0x05C => (tyInt d || tyMask d) && a = d
  | 0x050 | 0x051 => (tyInt a || vFlt a || tyCpx a) && a = b && tyMask d
  | 0x052 | 0x053 => (tyInt a || vFlt a) && a = b && tyMask d
  | 0x054 => vFlt a && a = b && tyMask d
  | 0x058 | 0x059 | 0x05A | 0x05B => (tyInt d || tyMask d) && a = d && b = d
  | 0x05D => d ≠ 0x11 && a = d && b = d && tyMask c
  | 0x060 | 0x061 => d ≠ 0x11 && a = d && tyMask c
  | 0x068 | 0x069 => d ≠ 0x11 && !tyMask d && a = d && (b = 4 || b = 5)
  | 0x070 => tyInt a && tyInt d && tySize a = tySize d
  | 0x071 => tyInt d && a = d && b = d
  | 0x072 => tyInt d && a = d
  | 0x073 => tyInt a && tyInt d && tySize a = tySize d && !tySigned d
  | 0x078 | 0x079 => (d = 12 || d = 13 || d = 14) && a = d && b = d
  | 0x080 | 0x081 => vFlt d && a = d
  | 0x088 => d ≠ 0x11
  | 0x089 => d ≠ 0x11 && a = d
  | 0x08A | 0x08B => d = 0x11 && a = 0x11
  | _ => false
where
  /-- a widens to d (VWMUL) -/
  wide (a d : Nat) : Bool :=
    (a = 1 && d = 3) || (a = 0 && d = 2) || (a = 3 && d = 5) || (a = 2 && d = 4) || (a = 8 && d = 10) || (a = 12 && d = 15)

/-! ## VPARAM (Table 3-4) -/

def pQshift (p : Nat) : Nat := fld p 0 6
def pScale (p : Nat) : Nat := fld p 6 2
def pSpan (p : Nat) : Nat := fld p 8 5
def pInv (p : Nat) : Bool := bitOf p 13
def pPos (p : Nat) : Nat := fld p 0 6
def pLen (p : Nat) : Nat := fld p 6 7

/-- Elements of a source per element of the destination (R119). -/
def srcRate (opc : Nat) : Nat := if opc = 0x038 then 4 else if opc = 0x039 then 2 else 1

/-- The operands an issue uses, by role. -/
structure VOps where
  opc : Nat
  d : Desc
  a : Option Desc
  b : Option Desc
  c : Option Desc
  vlen : Nat
  vparam : Nat

/-- The queue role of a queue operation must name a queue, every other role memory; in a queue operation the other role
holds ITEM64 records in memory (R109; see the log). -/
def descRegionBad (x : Desc) (queue : Bool) : Bool := if queue then x.region ≠ 2 else x.region = 2

/-- One operand breaks R109. dest: it is the destination; red: of a reduction; queue: a queue stream, whose BASE names its queue
(Table 3-1). A queue source with CTAP 1 breaks it (DESIGN CHOICE: R134 does not say what a tapped queue source is). -/
def descBad (x : Desc) (dest red queue : Bool) : Bool :=
  if x.ctap && !dest then queue
  else
    (x.region ≠ 2 && !tyMask x.ty && x.base % max (tySize x.ty) 1 ≠ 0) ||
    (tyMask x.ty && x.stride ≠ 1 && !(dest && red)) ||
    (dest && !red && x.stride = 0) ||
    (queue && x.base / 2 ^ 16 ≠ 0) || descRegionBad x queue || (dest && x.region = 3 && !x.ctap)

/-- The parameter is outside its range (R113, R128, R129). Of VPERMB's selectors only those of the element's own bytes are looked at
(DESIGN CHOICE, log entry 144: R128 does not say what the others must be). -/
def paramBad (v : VOps) : Bool :=
  let p := v.vparam
  match v.opc with
  | 0x070 | 0x071 => pLen p = 0 || 64 < pLen p || tyWidth v.d.ty < pPos p + pLen p
  | 0x072 => (List.range (tySize v.d.ty)).any fun j => !bitOf p (4 * j + 3) && tySize v.d.ty ≤ fld p (4 * j) 3
  | 0x078 => (v.d.ty = 12 && pScale p = 3) || 22 < pSpan p || v.vlen % (2 * 2 ^ pSpan p) ≠ 0
  | 0x079 => (v.d.ty = 12 && pScale p = 3) || 22 < pSpan p || v.vlen % (4 * 2 ^ pSpan p) ≠ 0
  | _ => false

/-- The operation may bind a tap (R133). -/
def mayTap (opc : Nat) : Bool :=
  match vopInfo opc with
  | some (.map, _) => true
  | some (.gather, _) => true
  | some (.qpop, _) => true
  | _ => false

def Seqr.tap (q : Seqr) (n : Nat) : Option VTap := tabGet none q.taps n
def Seqr.slot (q : Seqr) (n : Nat) : VSlot := tabGet {} q.slots n
def Seqr.setSlot (q : Seqr) (n : Nat) (x : VSlot) : Seqr := { q with slots := tabSet {} q.slots n x }
def Seqr.setTap (q : Seqr) (n : Nat) (x : Option VTap) : Seqr := { q with taps := tabSet none q.taps n x }

/-- A source that reads a tap breaks R134. -/
def tapSrcBad (q : Seqr) (v : VOps) (x : Desc) (rate : Nat) : Bool :=
  x.ctap && (match q.tap x.tapn with
    | none => true
    | some t => t.cons.isSome || x.ty ≠ t.ety || decide (t.vlen < v.vlen * rate))

/-- The fault found at issue, if any: 1 TYPE, 2 DESCRIPTOR, 3 TAP (R108, R109, R113, R133, R134). A VOP with LEN 0 finds
none (R112). -/
def issueFault (q : Seqr) (v : VOps) : Option Nat :=
  match vopInfo v.opc with
  | none => none
  | some (kind, _, _, _) =>
    let srcs := (match v.a with | some x => [x] | none => []) ++ (match v.b with | some x => [x] | none => []) ++
      match v.c with | some x => [x] | none => []
    let ty (x : Option Desc) : Nat := match x with | some y => y.ty | none => 0
    let red := kind = .reduce
    let rate := srcRate v.opc
    if v.vlen = 0 then none
    else if !(vopType v.d.ty && srcs.all fun x => vopType x.ty) || !vopTypesOk v.opc v.d.ty (ty v.a) (ty v.b) (ty v.c) then
      some 1
    else if descBad v.d true red (kind = .qpush) || (match v.a with | some x => descBad x false false (kind = .qpop) | none => false) ||
        (match v.b with | some x => descBad x false false false | none => false) ||
        (match v.c with | some x => descBad x false false false | none => false) || paramBad v then some 2
    else if (v.d.ctap && (!mayTap v.opc || (q.tap v.d.tapn).isSome)) ||
        (match v.a with
          | some x => tapSrcBad q v x rate || (x.ctap && kind = .gather)
          | none => false) ||
        (match v.b with | some x => tapSrcBad q v x rate | none => false) ||
        (match v.c with | some x => tapSrcBad q v x 1 | none => false) then some 3
    else none

/-- The operands of a slot. -/
def VSlot.ops (x : VSlot) : VOps :=
  match vopInfo x.opc.toNat with
  | none => ⟨x.opc.toNat, x.d, none, none, none, x.vlen, x.vparam.toNat⟩
  | some (_, ua, ub, uc) =>
    ⟨x.opc.toNat, x.d, if ua then some x.a else none, if ub then some x.b else none, if uc then some x.c else none,
      x.vlen, x.vparam.toNat⟩

/-- Bind the taps of a VOP in slot n that issues without a fault (R133, R134). -/
def Seqr.bind (q : Seqr) (n : Nat) (v : VOps) : Seqr :=
  let cons (q : Seqr) (x : Option Desc) : Seqr :=
    match x with
    | some y =>
      if y.ctap then (match q.tap y.tapn with
        | some t => q.setTap y.tapn (some { t with cons := some n })
        | none => q) else q
    | none => q
  if v.vlen = 0 then q
  else
    let q := cons (cons (cons q v.a) v.b) v.c
    if v.d.ctap then q.setTap v.d.tapn (some ⟨n, none, v.d.ty, v.vlen, 0, []⟩) else q

end Sys2Proof.Machine
end

