-- ==== Sys2Proof/Machine/VopStep.lean ====
section
/-! DEFINITION. One step of a long vector operation: element accesses with their checks, the blocks in the stream ports, the
element functions, tap buffers, HBM units, faults (03 R104, R110, R115 to R139, 04 R153, R154, R156, R160 to R163, 05 R177,
R178). -/

namespace Sys2Proof.Machine
open Sys2Proof

/-! ## Element accesses -/

/-- What an element access meets: its value, a wait at a safe point, or a fault with FCODE and FADDR. -/
inductive VAcc where
  | ok (v : Nat)
  | wait
  | fault (code addr : Nat)
deriving DecidableEq, Repr

/-- The address checks of R110 for n bytes at a in a region, and the wait of R156 for a hank of another hoop; none when
the element may be accessed. -/
def State.vPlace (s : State) (k region a n : Nat) : Option VAcc :=
  if region = 0 then
    if a < 0x010000000000 || 0x010010000000 < a + n then some (.fault 4 a)
    else
      let i := (a - 0x010000000000) / 0x400000
      let h := s.hank i
      match s.partOf k with
      | none => some (.fault 5 a)
      | some p =>
        if h.owner.toNat = p && i / 4 ≠ k / 8 && h.fabPending then some .wait
        else if !s.hankServes i p then some (.fault 5 a)
        else if i / 4 ≠ k / 8 && !(h.faben && h.fabhoop.toNat = k / 8) then some .wait
        else none
  else if 0x0017FC000000 < a + n then some (.fault 4 a)
  else
    match s.partOf k with
    | none => some (.fault 5 a)
    | some p => if s.hbmServes a p then none else some (.fault 5 a)

/-- Bytes of memory as the VOP in slot x sees its sources: those it has overwritten itself as they were (R136). -/
def State.vBytes (s : State) (x : VSlot) (a n : Nat) : List Byte :=
  (List.range n).map fun j => match tabGet none x.snap (a + j) with | some b => b | none => s.byte (a + j)

/-- A read access: the stream port it goes through (0 RA, 1 RB, 2 RC), the descriptor and the element. -/
abbrev VRd : Type := Nat × Desc × Int

def VRd.addr (r : VRd) : Nat := r.2.1.addr r.2.2

/-- The block of slot n's port p that holds a unit. -/
def Seqr.block (q : Seqr) (n p unit : Nat) : Option VBlock :=
  q.arrived.find? fun b => b.slot = n && b.port = p && b.unit = unit

def VBlock.bytes (b : VBlock) (a n : Nat) : List Byte := (b.data.drop (a % 256)).take n

/-- Access j of element i in operand p met data that is uncorrectable. -/
def elemHits (c : ElemCheck) (i p j : Nat) : Bool :=
  c.any fun e => e.elem.toNat = i && e.operand.toNat = p && e.part.toNat = j && e.chk = .uncorrectable

/-- The accesses of one element, each with its number among those of its operand. -/
def numbered (l : List VRd) : List (VRd × Nat) :=
  l.mapIdx fun i r => (r, ((l.take i).filter fun y => y.1 = r.1).length)

/-- A value of type ty that the manual does not state. -/
def freeElem (w : DWord) (ty : Nat) : Nat := w.toNat % 2 ^ (if tyMask ty then 1 else tyWidth ty)

/-- Element d[i] of a source by its port. An element that a tap has given away, which software asks for again by setting ELEM back,
is a free value (DESIGN CHOICE, log entry 153: R140 does not say). A block in the port was granted before and is used whatever
became of its place since
(05 R181, R202, R209). bad: scratch reports the data uncorrectable; HBM says so when it serves the unit. -/
def State.vRead (s : State) (k n : Nat) (r : VRd) (bad : Bool) : VAcc :=
  let q := s.seqr k
  let d := r.2.1
  let i := r.2.2
  if d.ctap then
    match q.tap d.tapn with
    | none => .wait
    | some t =>
      if i.toNat < t.first then .ok (freeElem s.fresh.1 d.ty)
      else match t.buf[i.toNat - t.first]? with
        | some v => .ok v.toNat
        | none => .wait
  else if d.region = 3 then .ok 0
  else
    let a := d.addr i
    match q.block n r.1 (a / 256) with
    | some b =>
      if b.bad || (bad && d.region = 0) then .fault 6 a
      else
        let v := natOfBytes (b.bytes a (memSize d.ty))
        .ok (if tyMask d.ty then b2n (bitOf v (i % 8).toNat) else v)
    | none => (s.vPlace k d.region a (memSize d.ty)).getD .wait

/-- The values of several accesses: a wait as long as one of them waits, since the faults are those of the step's check, after its
waits (11 R340, R344); then the first fault. -/
def vAll : List VAcc → VAcc ⊕ List Nat
  | [] => .inr []
  | .ok v :: r => match vAll r with | .inr l => .inr (v :: l) | .inl e => .inl e
  | .wait :: _ => .inl .wait
  | .fault c a :: r => match vAll r with | .inl .wait => .inl .wait | _ => .inl (.fault c a)

/-- The check of element i of the destination; none when it may be written. -/
def State.vDest (s : State) (k : Nat) (d : Desc) (i : Int) : Option VAcc :=
  if d.inMem then s.vPlace k d.region (d.addr i) (memSize d.ty) else none

/-! ## Element functions (Table 3-9) -/

/-- Bits of an element for the bitwise operations. -/
def bitWidth (t : Nat) : Nat := if tyMask t then 1 else tyWidth t

/-- Element i of d from the elements of a, b and c (Table 3-9, R120 to R123, R128). -/
def vopFn (opc td ta tb : Nat) (env : FEnv) (p : Nat) (a b : List Nat) (c : Nat) : ERes :=
  let a0 := a.headD 0
  let b0 := b.headD 0
  let q := pQshift p
  match opc with
  | 0x001 => eAddSub false td env a0 b0
  | 0x002 => eAddSub true td env a0 b0
  | 0x003 => eMul td env q a0 b0
  | 0x004 => eFma 0 td env q a0 b0 c
  | 0x005 => eFma 1 td env q a0 b0 c
  | 0x006 => eFma 2 td env q a0 b0 c
  | 0x007 => eMinMax false td env a0 b0
  | 0x008 => eMinMax true td env a0 b0
  | 0x009 => eAbs td env a0
  | 0x00A => eNeg td env a0
  | 0x00B => eCvt ta td env a0
  | 0x00C => eShift 0 td env a0 b0
  | 0x00D => eShift 1 td env a0 b0
  | 0x00E => eShift 2 td env a0 b0
  | 0x020 => eCmul false ta td env q a0 b0 none
  | 0x021 => eCmul true ta td env q a0 b0 none
  | 0x022 => eCmul false ta td env q a0 b0 (some c)
  | 0x023 => eCmul true ta td env q a0 b0 (some c)
  | 0x030 => eWmul ta td env a0 b0 none
  | 0x031 => eWmul ta td env a0 b0 (some c)
  | 0x038 | 0x039 => eDot ta tb td env a b c
  | 0x050 => eCmp 0 ta env a0 b0
  | 0x051 => eCmp 1 ta env a0 b0
  | 0x052 => eCmp 2 ta env a0 b0
  | 0x053 => eCmp 3 ta env a0 b0
  | 0x054 => eCmp 4 ta env a0 b0
  | 0x058 => some (eLogic 0 (bitWidth td) a0 b0, 0)
  | 0x059 => some (eLogic 1 (bitWidth td) a0 b0, 0)
  | 0x05A => some (eLogic 2 (bitWidth td) a0 b0, 0)
  | 0x05B => some (eLogic 3 (bitWidth td) a0 b0, 0)
  | 0x05C => some (eLogic 4 (bitWidth td) a0 0, 0)
  | 0x05D => some (if c = 1 then a0 else b0, 0)
  | 0x070 =>
    let f := fld a0 (pPos p) (pLen p)
    some (if tySigned td then (sextNat (pLen p) f % 2 ^ tyWidth td).toNat else f, 0)
  | 0x071 => some (setFld a0 (pPos p) (pLen p) b0, 0)
  | 0x072 => some (ePermb (tySize td) p a0, 0)
  | 0x073 => some (clzNat (tyWidth td) a0, 0)
  | 0x080 => eOfF (fRcp (tyFmt td) env (fIn (tyFmt td) env a0))
  | 0x081 => eOfF (fRsqrt (tyFmt td) env (fIn (tyFmt td) env a0))
  | 0x088 => some (p % 2 ^ bitWidth td, 0)
  | _ => some (a0, 0)

/-- Elements in a step from element e (R137, R125): one element group of the widest operand. -/
def VOps.stepLen (v : VOps) (kind : VKind) : Nat :=
  let per (x : Option Desc) (rate : Nat) : Nat := match x with | some d => rate * tySize d.ty | none => 0
  match kind with
  | .map =>
    let w := max (tySize v.d.ty) (max (per v.a (srcRate v.opc)) (max (per v.b (srcRate v.opc)) (per v.c 1)))
    if w = 0 then 2048 else 256 / w
  | .reduce => match v.a with
    | some d => if tyMask d.ty then 2048 else 256 / max (tySize d.ty) 1
    | none => 1
  | _ => 1

/-! ## Reductions (R125, R126) -/

/-- One pass of the pairwise tree: neighbours added, an unpaired last value kept. -/
def pairUp (f : Nat → Nat → ERes) : List Nat → Option (List Nat × Nat)
  | x :: y :: r =>
    match f x y, pairUp f r with
    | some v, some (l, g) => some (v.1 :: l, orF v.2 g)
    | _, _ => none
  | l => some (l, 0)

/-- Passes until one value is left; n bounds their number. -/
def treeSum (f : Nat → Nat → ERes) : Nat → List Nat → Nat → Option (Nat × Nat)
  | 0, l, fl => some (l.headD 0, fl)
  | n + 1, l, fl =>
    if l.length ≤ 1 then some (l.headD 0, fl)
    else match pairUp f l with
      | some (l', g) => treeSum f n l' (orF fl g)
      | none => none

/-- The "+" of VRSUM: floating point rounds; S64 and U64 are fitted; narrower sources are exact in 64 bits. -/
def sumFn (ta td : Nat) (env : FEnv) (a b : Nat) : ERes :=
  if vFlt td then eAddSub false td env a b
  else if tySize ta = 8 then eAddSub false td env a b
  else some ((a + b) % 2 ^ 64, 0)

/-- A source element in the type VRSUM adds in: floating point converted exactly, an input of the operation (10 R321, R324);
integers to 64 bits. -/
def sumIn (ta td : Nat) (env : FEnv) (a : Nat) : ERes :=
  if vFlt td then eOfF (fExact (tyFmt td) env (fIn (tyFmt ta) env a))
  else some ((tyVal ta a % 2 ^ 64).toNat, 0)

/-- x is strictly preferred to y by VRMIN (mx false) or VRMAX, y's NaN giving way to any number (R126); of integers under
VRMAXA (abs) the magnitudes are compared. -/
def better (mx abs : Bool) (t : Nat) (env : FEnv) (x y : Nat) : Bool :=
  if tyInt t then
    let key (z : Nat) : Int := if abs then Int.ofNat (tyVal t z).natAbs else tyVal t z
    if mx then decide (key y < key x) else decide (key x < key y)
  else
    let u := (fIn (tyFmt t) env x).val
    let w := (fIn (tyFmt t) env y).val
    if u.isNan then false
    else if w.isNan then true
    else if mx then decide (fCmpV w u < 0) else decide (fCmpV u w < 0)

/-- An element as a selecting reduction takes it: its magnitude under VRMAXA, wrapped where its type does not hold it; a
floating-point input with its flags, not yet a result. -/
def selIn (abs : Bool) (t : Nat) (env : FEnv) (x : Nat) : ERes :=
  let y := if abs then (match eAbs t { env with sat := false } x with | some v => v.1 | none => x) else x
  if tyInt t then some (y, 0) else eOfF (fExact (tyFmt t) env (fIn (tyFmt t) env y))

/-- The result of a selecting reduction so far: value, index, flags of the inputs. -/
def selFold (mx abs : Bool) (t : Nat) (env : FEnv) : List (Nat × Nat) → Option (Nat × Nat × Nat) → Option (Nat × Nat × Nat)
  | [], acc => acc
  | (i, x) :: r, acc =>
    match selIn abs t env x, acc with
    | none, _ => none
    | some v, some (m, j, fl) =>
      let g := orF fl v.2
      selFold mx abs t env r (some (if better mx abs t env v.1 m then (v.1, i, g) else (m, j, g)))
    | some _, none => none

/-- One step of a reduction over the elements (i, x): the accumulator, AUX and flags; none when STRAP stops it. first: no
element has been accumulated. -/
def redStep (opc ta td : Nat) (env : FEnv) (first : Bool) (acc aux : Nat) (l : List (Nat × Nat)) : Option (Nat × Nat × Nat) :=
  match opc with
  | 0x040 =>
    let ins := l.map fun e => sumIn ta td env e.2
    if ins.any fun r => r.isNone then none
    else
      let vs := ins.map fun r => match r with | some v => v.1 | none => 0
      let fl0 := ins.foldl (fun f r => match r with | some v => orF f v.2 | none => f) 0
      match treeSum (sumFn ta td env) 12 vs fl0 with
      | none => none
      | some (v, fl) =>
        if first then some (v, 0, fl)
        else match sumFn ta td env acc v with
          | some r => some (r.1, 0, orF fl r.2)
          | none => none
  | 0x041 | 0x042 | 0x043 =>
    let mx := opc ≠ 0x041
    let abs := opc = 0x043
    let start : Nat × Nat × Nat :=
      if !first then (acc, aux, 0)
      else if tyInt ta then
        (match l.head? with
          | some e => ((match selIn abs ta env e.2 with | some v => v.1 | none => e.2), e.1, 0)
          | none => (0, 0, 0))
      else ((tyFmt ta).nanBits, 0, 0)
    selFold mx abs ta env l (some start)
  | _ =>
    let f (x y : Nat) : Nat := if opc = 0x044 then x &&& y else if opc = 0x045 then x ||| y else x ^^^ y
    match l with
    | [] => some (acc, 0, 0)
    | e :: r => some (r.foldl (fun x y => f x y.2) (if first then e.2 else f acc e.2), 0, 0)

/-- d[0] of a reduction from its accumulator: the exact integer sum, and the magnitude of VRMAXA, fitted once (R115); the
selected floating-point element, and a VRSUM of one element, which no "+" has rounded, delivered as a result under FZO
(10 R325). none: STRAP stops a tiny result. -/
def redOut (opc ta td : Nat) (env : FEnv) (acc : Nat) : Option (Nat × Nat) :=
  let sel := opc = 0x041 || opc = 0x042 || opc = 0x043
  if opc = 0x040 && tyInt ta && tySize ta ≠ 8 then
    some (fitInt (tyWidth td) (tySigned td) env.sat (if tySigned ta then sextNat 64 acc else Int.ofNat acc))
  else if opc = 0x043 && tyInt td then some (fitInt (tyWidth td) (tySigned td) env.sat (Int.ofNat (tyVal td acc).natAbs))
  else if (sel || opc = 0x040) && vFlt td then
    eOfF (fFinish env [] 0 (fOut (tyFmt td) env (fIn (tyFmt td) { env with fzi := false } acc).val))
  else some (acc, 0)

/-! ## Butterflies (R129) -/

/-- The sum and difference of two complex points, or with j × the second. -/
def cxNeg (t x : Nat) : Nat := match eNeg t { rm := 0, fzi := false, fzo := false, strap := false, sat := false } x with
  | some v => v.1
  | none => x

/-- j × x of a floating-point complex value: (−im, re). -/
def cxJ (t x : Nat) : Nat :=
  let w := tyCompWidth t
  cxNeg t (cIm t x) % 2 ^ w + cRe t x * 2 ^ w

/-- A floating-point butterfly: products and sums rounded in the order shown. -/
def bflyF (r4 inv : Bool) (t : Nat) (env : FEnv) (x w : List Nat) : Option (List Nat × Nat) :=
  let g (l : List Nat) (i : Nat) : Nat := l.getD i 0
  let mul (a b : Nat) := eCmul false t t env 0 a b none
  let add (a b : Nat) := eAddSub false t env a b
  let sub (a b : Nat) := eAddSub true t env a b
  if r4 then do
    let t1 ← mul (g w 0) (g x 1)
    let t2 ← mul (g w 1) (g x 2)
    let t3 ← mul (g w 2) (g x 3)
    let s0 ← add (g x 0) t2.1
    let s1 ← sub (g x 0) t2.1
    let s2 ← add t1.1 t3.1
    let s3 ← sub t1.1 t3.1
    let y0 ← add s0.1 s2.1
    let y2 ← sub s0.1 s2.1
    let ym ← sub s1.1 (cxJ t s3.1)
    let yp ← add s1.1 (cxJ t s3.1)
    let fl := [t1, t2, t3, s0, s1, s2, s3, y0, y2, ym, yp].foldl (fun f r => orF f r.2) 0
    return (if inv then [y0.1, yp.1, y2.1, ym.1] else [y0.1, ym.1, y2.1, yp.1], fl)
  else do
    let t1 ← mul (g w 0) (g x 1)
    let y0 ← add (g x 0) t1.1
    let y1 ← sub (g x 0) t1.1
    return ([y0.1, y1.1], orF t1.2 (orF y0.2 y1.2))

/-- A C16 butterfly: products rounded by QSHIFT and kept exactly, sums exact, outputs rounded by SCALE and fitted. -/
def bflyI (r4 inv : Bool) (env : FEnv) (q sc : Nat) (x w : List Nat) : List Nat × Nat :=
  let re (v : Nat) : Int := cVal 12 (cRe 12 v)
  let im (v : Nat) : Int := cVal 12 (cIm 12 v)
  let g (l : List Nat) (i : Nat) : Int × Int := (re (l.getD i 0), im (l.getD i 0))
  let mul (a b : Int × Int) : Int × Int :=
    (rneShift (a.1 * b.1 - a.2 * b.2) q, rneShift (a.1 * b.2 + a.2 * b.1) q)
  let add (a b : Int × Int) : Int × Int := (a.1 + b.1, a.2 + b.2)
  let sub (a b : Int × Int) : Int × Int := (a.1 - b.1, a.2 - b.2)
  let jm (a : Int × Int) : Int × Int := (-a.2, a.1)
  let out (a : Int × Int) : Nat × Nat :=
    let p := fitInt 16 true env.sat (rneShift a.1 sc)
    let r := fitInt 16 true env.sat (rneShift a.2 sc)
    (p.1 + r.1 * 2 ^ 16, orF p.2 r.2)
  let ys :=
    if r4 then
      let t1 := mul (g w 0) (g x 1)
      let t2 := mul (g w 1) (g x 2)
      let t3 := mul (g w 2) (g x 3)
      let s0 := add (g x 0) t2
      let s1 := sub (g x 0) t2
      let s2 := add t1 t3
      let s3 := sub t1 t3
      let ym := sub s1 (jm s3)
      let yp := add s1 (jm s3)
      [add s0 s2, if inv then yp else ym, sub s0 s2, if inv then ym else yp]
    else
      let t1 := mul (g w 0) (g x 1)
      [add (g x 0) t1, sub (g x 0) t1]
  let rs := ys.map out
  (rs.map Prod.fst, rs.foldl (fun f r => orF f r.2) 0)

/-! ## Overlapping streams (R136) -/

/-- The overlaps whose results R136 gives: exactly in place, or the destination trails the source. -/
def overlapGiven (d x : Desc) : Bool :=
  d.ty = x.ty && d.stride = x.stride && (d.base = x.base || (decide (0 < d.stride) && decide (d.base < x.base)))

/-- Some element below cnt of stream x meets the n bytes at a. -/
def streamMeets (x : Desc) (cnt a n : Nat) : Bool :=
  if tyMask x.ty then decide (a < x.base + (cnt + 7) / 8) && decide (x.base < a + n)
  else
    let sz := tySize x.ty
    let st : Int := x.stride * Int.ofNat sz
    let at_ (j : Int) : Bool :=
      decide (0 ≤ j) && decide (j < Int.ofNat cnt) && decide (x.addr j < a + n) && decide (a < x.addr j + sz)
    if st = 0 then decide (0 < cnt) && at_ 0
    else
      let j := (Int.ofNat a - Int.ofNat x.base) / st
      at_ (j - 1) || at_ j || at_ (j + 1)

/-- The elements of operand a, b or c that the VOP reads as a stream. -/
def VOps.streams (v : VOps) (kind : VKind) : List (Desc × Nat) :=
  let one (x : Option Desc) (cnt : Nat) : List (Desc × Nat) :=
    match x with | some d => if d.memSrc then [(d, cnt)] else [] | none => []
  (if kind = .gather then [] else one v.a (v.vlen * srcRate v.opc)) ++
    one v.b (if kind = .bfly then (if v.opc = 0x079 then 3 else 1) * 2 ^ pSpan v.vparam else v.vlen * srcRate v.opc) ++
    one v.c v.vlen

/-- Index b[j] of a gather or scatter, when memory holds it. -/
def State.vIndex (s : State) (x : VSlot) (v : VOps) (j : Nat) : Int :=
  match v.b with
  | some b => tyVal b.ty (natOfBytes (s.vBytes x (b.addr j) 4))
  | none => 0

/-- n bytes at a of the destination lie in a source of the VOP in a way that R136 leaves open. -/
def State.overlapOpen (s : State) (x : VSlot) (v : VOps) (kind : VKind) (a n : Nat) : Bool :=
  ((v.streams kind).any fun e => !overlapGiven v.d e.1 && streamMeets e.1 e.2 a n) ||
    (kind = .gather && (match v.a, v.b with
      | some t, some b =>
        !overlapGiven v.d t && b.memSrc && (List.range v.vlen).any fun j =>
          let e := t.addr (s.vIndex x v j)
          decide (e < a + n) && decide (a < e + tySize t.ty)
      | _, _ => false))

/-- Writes of the VOP must keep what they overwrite for its own later reads. -/
def VOps.keeps (v : VOps) (kind : VKind) : Bool :=
  (kind = .expand || kind = .gather || kind = .scatter || kind = .bfly) &&
    ((match v.a with | some x => x.memSrc && overlapGiven v.d x | none => false) ||
      match v.b with | some x => x.memSrc && overlapGiven v.d x | none => false)

/-! ## Writing an element -/

def State.modSlot (s : State) (k n : Nat) (f : VSlot → VSlot) : State :=
  let q := s.seqr k
  s.setSeqr k (q.setSlot n (f (q.slot n)))

/-- Units that the W port gathers side by side: one output stream, or one for each point of a butterfly (04 R162). -/
def gatherWidth (kind : VKind) (opc : BitVec 10) : Nat := if kind = .bfly then (if opc = 0x079 then 4 else 2) else 1

/-- Bytes for one HBM unit enter the W port, which gathers m units: those of one unit gather there, and the oldest unit makes room
for a new one and goes out (04 R162). -/
def VSlot.gather (x : VSlot) (m unit : Nat) (l : List (Nat × Byte)) : VSlot :=
  if x.wbuf.any fun e => e.1 = unit then
    { x with wbuf := x.wbuf.map fun (e : Nat × List (Nat × Byte)) => if e.1 = unit then (e.1, e.2 ++ l) else e }
  else
    let w := x.wbuf ++ [(unit, l)]
    { x with outq := x.outq ++ w.take (w.length - m), wbuf := w.drop (w.length - m) }

/-- The units that the W port gathers go out. -/
def VSlot.close (x : VSlot) : VSlot := { x with outq := x.outq ++ x.wbuf, wbuf := [] }

/-- The byte at a as the slot last wrote it to HBM, written or on its way. -/
def State.vLast (s : State) (k n a : Nat) : Byte :=
  let x := (s.seqr k).slot n
  let out := (s.reqs k).flatMap fun r => match r.src with
    | .port m _ => if m = n && r.write && r.ctx = s.vCtx k then r.data else []
    | _ => []
  let l := out ++ (x.outq ++ x.wbuf).flatMap Prod.snd
  match l.reverse.find? fun e => e.1 = a with
  | some e => e.2
  | none => s.byte a

/-- Element i of the destination receives v. An element of an overlap that R136 leaves open keeps its old value or takes
the new one by a free choice. Bytes for HBM leave through the W port. -/
def State.vPut (s : State) (k n : Nat) (v : VOps) (kind : VKind) (i : Int) (val : Nat) : State :=
  let d := v.d
  if !d.inMem then s
  else
    let x := (s.seqr k).slot n
    let a := d.addr i
    let sz := memSize d.ty
    let open_ := s.overlapOpen x v kind a sz
    let r := s.fresh
    let s' := if open_ then r.2 else s
    if open_ && r.1.getLsbD 0 then s'
    else
      let bytes := if tyMask d.ty then
          [BitVec.ofNat 8 (setFld (if d.region = 1 then s'.vLast k n a else s'.byte a).toNat (i % 8).toNat 1 val)]
        else bytesOfNat sz val
      let old := s'.bytes a sz
      let s' := if v.keeps kind then
          s'.modSlot k n fun x => { x with snap := (List.range sz).foldl (fun t j =>
            if (tabGet none t (a + j)).isSome then t else tabSet none t (a + j) (some (old.getD j 0))) x.snap }
        else s'
      if d.region = 1 then
        s'.modSlot k n fun x => x.gather (gatherWidth kind x.opc) (a / 256) (bytes.mapIdx fun j b => (a + j, b))
      else s'.poke a bytes

/-! ## The stream ports (04 R153, R154, R160 to R163) -/

/-- Port p of slot n has asked for a unit and waits for it. -/
def State.vAsks (s : State) (k n p unit : Nat) : Bool :=
  (s.reqs k).any fun r => r.src = .port n p && r.ctx = s.vCtx k && r.block = unit && !r.write && !r.dropped

/-- Issue a port's read when an entry is free and the port does not ask for the unit already. -/
def State.vRequest (s : State) (k n p unit : Nat) : State :=
  if !s.entryFree k || s.vAsks k n p unit then s
  else s.addReq k { src := .port n p, ctx := s.vCtx k, block := unit, write := false }

/-- The written units of a slot that wait for an entry take the free ones in order. -/
def State.vFlush (s : State) (k n : Nat) : State :=
  let x := (s.seqr k).slot n
  let room := 32 - (s.reqs k).length
  let s' := (x.outq.take room).foldl (fun s u =>
    s.addReq k { src := .port n 3, ctx := s.vCtx k, block := u.1, write := true, data := u.2 }) s
  if x.outq.isEmpty then s else s'.modSlot k n fun x => { x with outq := x.outq.drop room }

/-- Blocks that read port p of the spindle holds or has asked for, over all slots (04 R154). The elements of a step at hand have
gone on into its pipe. -/
def State.vPortHeld (s : State) (k p : Nat) : Nat :=
  ((s.seqr k).arrived.filter fun b => b.port = p && !b.taken).length +
    ((s.reqs k).filter fun r => !r.write && (match r.src with | .port _ q => q = p | _ => false)).length

/-- The block of an access of the step at hand leaves the port's buffer for the pipe's input. -/
def State.vTake (s : State) (k n : Nat) (r : VRd) : State :=
  let q := s.seqr k
  if !r.2.1.memSrc then s
  else s.setSeqr k { q with arrived := q.arrived.map fun (b : VBlock) =>
    if b.slot = n && b.port = r.1 && b.unit = r.addr / 256 then { b with taken := true } else b }

/-- The ports fetch what an access needs, when the port has buffer space (R153): a scratch block moves, an HBM unit is asked for. An
element that may not be accessed fetches nothing. -/
def State.vFetch (s : State) (k n : Nat) (x : VSlot) (r : VRd) : State :=
  let d := r.2.1
  let a := r.addr
  let q := s.seqr k
  if !d.memSrc || (s.vPlace k d.region a (memSize d.ty)).isSome || (q.block n r.1 (a / 256)).isSome ||
      16 ≤ s.vPortHeld k r.1 then s
  else if d.region = 0 then
    s.setSeqr k { q with arrived := q.arrived ++ [⟨n, r.1, a / 256, s.vBytes x (a / 256 * 256) 256, false, false⟩] }
  else s.vRequest k n r.1 (a / 256)

/-- The next block of a port that may not move yet holds back the port's later ones (04 R153). One that may never move, since its
access faults, holds back none: the step finds that fault. -/
def State.vBlocked (s : State) (k n : Nat) (r : VRd) : Bool :=
  r.2.1.memSrc && ((s.seqr k).block n r.1 (r.addr / 256)).isNone &&
    s.vPlace k r.2.1.region r.addr (memSize r.2.1.ty) = some .wait

/-- The ports fetch for the accesses l of the step at hand, in their order; what they hold of them goes on into the pipe. -/
def State.vFill (s : State) (k n : Nat) (x : VSlot) (l : List VRd) : State :=
  (l.foldl (fun (a : State × List Nat) r =>
    if a.2.contains r.1 then a
    else (((a.1.vTake k n r).vFetch k n x r).vTake k n r, if a.1.vBlocked k n r then r.1 :: a.2 else a.2)) (s, [])).1

/-- The ports fetch ahead for the accesses l. -/
def State.vFillAhead (s : State) (k n : Nat) (x : VSlot) (l : List VRd) : State :=
  (l.foldl (fun (a : State × List Nat) r =>
    if a.2.contains r.1 then a
    else (a.1.vFetch k n x r, if a.1.vBlocked k n r then r.1 :: a.2 else a.2)) (s, [])).1

/-- Blocks that the W port holds, over all slots. -/
def State.wHeld (s : State) (k : Nat) : Nat := (s.seqr k).slots.foldl (fun n e => n + e.2.outq.length + e.2.wbuf.length) 0

/-- A step that must wait: the slot waits at its safe point (R137). -/
def State.vWait (s : State) (k n : Nat) : State := s.modSlot k n fun x => { x with state := .waiting }

/-- The W port can take the step's output: an HBM destination needs a free entry, and room among the port's 16 blocks (11
Table 11-4, 04 R154). -/
def State.vRoom (s : State) (k n : Nat) (v : VOps) : Bool :=
  v.d.region ≠ 1 || (s.entryFree k && decide (s.wHeld k - ((s.seqr k).slot n).wbuf.length < 16))

/-- The table block of a gather: an HBM table takes an octet for each element, and the elements of one unit of scratch that follow
one another move together (R160). -/
def VBlock.ofTable (b : VBlock) (kind : VKind) : Bool := kind = .gather && b.port = 0

/-- A gather turns to another unit of its table: the block before leaves the port. -/
def State.vTable (s : State) (k n : Nat) (r : VRd) : State :=
  let q := s.seqr k
  s.setSeqr k { q with arrived := q.arrived.filter fun b => !(b.slot = n && b.port = 0 && b.unit ≠ r.addr / 256) }

/-- Elements 0 to n − 1 of a stream lie in these hanks: every one from the lowest to the highest address, since a stride that
leaps over a hank leaves scratch within 128 elements. -/
def Desc.hanks (x : Desc) (n : Nat) : List Nat :=
  if x.stride.natAbs * tySize x.ty ≤ 0x400000 then
    let e := hankOf (x.addr (Int.ofNat (n - 1)))
    let b := hankOf x.base
    (List.range (max b e - min b e + 1)).map fun i => min b e + i
  else (List.range (min n 128)).map fun i => hankOf (x.addr (Int.ofNat i))

/-- The conditions of R161: the twiddle source is read once per pass. Operands that share a hank anywhere lie in no different
ones. -/
def VOps.twiddleOnce (v : VOps) : Bool :=
  let r := if v.opc = 0x079 then 3 else 1
  let apart (x y : List Nat) : Bool := x.all fun h => !y.contains h
  match v.a, v.b with
  | some a, some b =>
    let ha := a.hanks v.vlen
    let hd := v.d.hanks v.vlen
    let hb := b.hanks (r * 2 ^ pSpan v.vparam)
    a.memSrc && b.memSrc && v.d.inMem && a.region = 0 && b.region = 0 && v.d.region = 0 && apart ha hd && apart hb ha && apart hb hd &&
      a.base % 2048 = 0 && v.d.base % 2048 = 0 && decide (r * 2 ^ pSpan v.vparam * tySize b.ty ≤ 16384)
  | _, _ => false

/-- Blocks whose last element a step has used leave the slot's ports; next: the accesses that follow. A butterfly keeps its
twiddles for the pass under R161's conditions (once); otherwise for the group (inside: it goes on), as far as the buffer of 16 KiB
takes them, and reads them again for the next one. -/
def State.vForget (s : State) (k n : Nat) (kind : VKind) (used next : List VRd) (once inside : Bool) : State :=
  let q := s.seqr k
  let full := decide (64 < (q.arrived.filter fun b => b.slot = n && b.port = 1).length)
  let leaves (b : VBlock) : Bool :=
    (used.any fun r => r.1 = b.port && r.addr / 256 = b.unit) &&
      !(next.any fun r => r.1 = b.port && r.2.1.memSrc && r.addr / 256 = b.unit)
  let gone (b : VBlock) : Bool :=
    b.slot = n &&
      if kind = .bfly && b.port = 1 then !once && (!inside || (full && leaves b))
      else if b.ofTable kind then isHbm (b.unit * 256)
      else leaves b
  s.setSeqr k { q with arrived := q.arrived.filter fun b => !gone b }

/-! ## Faults (R138, R139, R141, R142) -/

/-- The sequencer halts: VFAULT is raised, at once or when the restore ends if a preemption waits (R141); not when the skein
has spent its budget or is to stop (R142). -/
def State.vHalt (s : State) (k : Nat) : State :=
  let q := s.seqr k
  let d := s.disp k
  let spent := match d.running with | some x => x.budget = 0 | none => false
  let ends := d.stop.isSome || spent
  let s := s.setSeqr k { q with halted := true, faultAtSave := q.faultAtSave || (d.preempt && !ends) }
  if d.preempt || ends then s else s.l1EventAt k 0

/-- Record a fault in slot n. -/
def State.vFault (s : State) (k n elem code addr : Nat) : State :=
  let s := s.modSlot k n fun x =>
    { x.close with state := .faulted, elem := elem, fcode := BitVec.ofNat 4 code, faddr := addr }
  let s := if code = 6 && isScratch addr then s.hankUe addr else s
  (s.vFlush k n).vHalt k

/-! ## Rows -/

/-- What one element of a step comes to: a value to write, nothing to write, or no value. -/
inductive VRow where
  | out (i : Int) (v fl : Nat)
  /-- flags alone -/
  | note (fl : Nat)
  | skip
  | wait
  | fault (code addr : Nat)
deriving DecidableEq, Repr

def VRow.ofAcc : VAcc → VRow
  | .fault c a => .fault c a
  | _ => .wait

/-- Address FADDR gives for a subnormal stop: the first source's element, else the destination's. -/
def VOps.subAddr (v : VOps) (i : Nat) : Nat :=
  match v.a with
  | some x => if x.memSrc then x.addr (i * srcRate v.opc) else 0
  | none => if v.d.inMem then v.d.addr i else 0

/-- The accesses of element i of an elementwise operation. -/
def VOps.reads (v : VOps) (i : Nat) : List VRd :=
  let m := srcRate v.opc
  let one (p : Nat) (x : Option Desc) : List VRd :=
    match x with | some d => (List.range m).map fun j => (p, d, Int.ofNat (m * i + j)) | none => []
  one 0 v.a ++ one 1 v.b ++ match v.c with | some d => [(2, d, Int.ofNat i)] | none => []

def VSlot.env (x : VSlot) : FEnv := envOf x.vfctl (Desc.sat x.d)

/-- Element i of an elementwise operation. A fault of the destination's address comes before a subnormal stop (R139). -/
def State.vMapRow (s : State) (k n : Nat) (x : VSlot) (v : VOps) (chk : ElemCheck) (i : Nat) : VRow :=
  match vAll ((numbered (v.reads i)).map fun r => s.vRead k n r.1 (elemHits chk i r.1.1 r.2)) with
  | .inl e => .ofAcc e
  | .inr l =>
    match s.vDest k v.d i with
    | some e => .ofAcc e
    | none =>
      let m := srcRate v.opc
      let na := if v.a.isSome then m else 0
      let nb := if v.b.isSome then m else 0
      let ty (o : Option Desc) : Nat := match o with | some d => d.ty | none => 0
      match vopFn v.opc v.d.ty (ty v.a) (ty v.b) x.env v.vparam (l.take na) ((l.drop na).take nb) (l.getD (na + nb) 0) with
      | none => .fault 10 (v.subAddr i)
      | some r => .out i r.1 r.2

/-- Rows of elements i, i + 1, …, m of them, up to the first that faults; a wait anywhere before it makes the step wait. -/
def rowRun (f : Nat → VRow) : Nat → Nat → List (Nat × VRow) → Option (List (Nat × VRow) × Option (Nat × Nat × Nat))
  | 0, _, acc => some (acc, none)
  | m + 1, i, acc =>
    match f i with
    | .wait => none
    | .fault c a => some (acc, some (i, c, a))
    | r => rowRun f m (i + 1) (acc ++ [(i, r)])

/-! ## Taps (R133 to R135) -/

/-- Elements a tap holds: 4 element groups. -/
def tapCap (t : Nat) : Nat := if tyMask t then 8192 else 1024 / max (tySize t) 1

/-- The tap's consumer is a butterfly that takes its twiddles from it: they go on into the twiddle buffer, which gives them to every
group (04 R161). The model keeps them in the tap's list until the butterfly is DONE (DESIGN CHOICE, log entry 143). -/
def Seqr.tapTwiddles (q : Seqr) (tap : Nat) (t : VTap) : Bool :=
  match t.cons with
  | some c =>
    let v := (q.slot c).ops
    (match vopInfo v.opc with | some (kind, _) => decide (kind = .bfly) | none => false) &&
      (match v.b with | some b => b.ctap && b.tapn = tap | none => false)
  | none => false

/-- The destination's tap has space for m elements; a tap that its consumer has left takes any number. -/
def State.tapRoom (s : State) (k n : Nat) (d : Desc) (m : Nat) : Bool :=
  if !d.ctap then true
  else match (s.seqr k).tap d.tapn with
    | some t => t.prod ≠ n || (s.seqr k).tapTwiddles d.tapn t || decide (t.buf.length + m ≤ tapCap t.ety)
    | none => true

/-- Element i is published with value v: at its place. Elements that the producer has passed over, since software advanced its ELEM,
hold free values; one published before and still held is replaced, and one that has been taken is not seen again (DESIGN CHOICE, log
entry 153: R140 does not say what a tap then holds). -/
def VTap.publish (t : VTap) (w : DWord) (i v : Nat) : VTap :=
  let next := t.first + t.buf.length
  if i < next then { t with buf := if t.first ≤ i then t.buf.set (i - t.first) (BitVec.ofNat 512 v) else t.buf }
  else { t with buf := t.buf ++ List.replicate (i - next) (BitVec.ofNat 512 (freeElem w t.ety)) ++ [BitVec.ofNat 512 v] }

/-- Publish values on the destination's tap, each with its element. Elements that software has stepped over by advancing ELEM
stand in
it as free values (DESIGN CHOICE, log entry 153). -/
def State.tapPut (s : State) (k n : Nat) (d : Desc) (l : List (Nat × Nat)) : State :=
  if !d.ctap then s
  else
    match (s.seqr k).tap d.tapn with
    | some t =>
      if t.prod ≠ n then s
      else
        let skips := match l.head? with | some e => decide (t.first + t.buf.length < e.1) | none => false
        let r := if skips then s.fresh else (0, s)
        r.2.setSeqr k ((r.2.seqr k).setTap d.tapn (some (l.foldl (fun t e => t.publish r.1 e.1 e.2) t)))
    | none => s

/-- The lowest element that the roles of a VOP, each with the next element it takes, still need of a tap: two roles may name one
tap, and each element is supplied to both (R134). -/
def tapLow (roles : List (Option Desc × Nat)) (tap i : Nat) : Nat :=
  roles.foldl (fun m r => match r.1 with | some d => if d.ctap && d.tapn = tap then min m r.2 else m | none => m) i

/-- Drop the elements of a source tap below index i. -/
def State.tapTake (s : State) (k : Nat) (x : Option Desc) (i : Nat) : State :=
  match x with
  | some d =>
    if !d.ctap then s
    else
      let q := s.seqr k
      match q.tap d.tapn with
      | some t => s.setSeqr k (q.setTap d.tapn (some { t with buf := t.buf.drop (i - t.first), first := max i t.first }))
      | none => s
  | none => s

/-! ## The steps -/

/-- The accesses that step j of an operation makes through its ports; those of a gather's table and a queue are not known
before. e, aux: the step and AUX at hand. -/
def VOps.stepReads (v : VOps) (kind : VKind) (e aux j : Nat) : List VRd :=
  let at_ (p : Nat) (x : Option Desc) (i : Nat) : List VRd := match x with | some d => [(p, d, Int.ofNat i)] | none => []
  match kind with
  | .map => v.reads j
  | .reduce => at_ 0 v.a j
  | .gather => at_ 1 v.b j
  | .scatter => at_ 1 v.b j ++ at_ 0 v.a j
  | .compress => at_ 0 v.a j ++ at_ 2 v.c j
  | .expand => at_ 2 v.c j ++ at_ 0 v.a (aux + (j - e))
  | .bfly =>
    let r := if v.opc = 0x079 then 4 else 2
    let h := 2 ^ pSpan v.vparam
    let pts := (List.range r).map fun m => j / h * r * h + j % h + m * h
    let tws := (List.range (r - 1)).map fun m => (m + 1) * (j % h)
    pts.flatMap (at_ 0 v.a) ++ tws.flatMap (at_ 1 v.b)
  | .qpush => at_ 0 v.a j
  | .qpop => []

/-- Steps there are in all: elements, or butterflies. -/
def VOps.total (v : VOps) : Nat :=
  if v.opc = 0x078 then v.vlen / 2 else if v.opc = 0x079 then v.vlen / 4 else v.vlen

/-- The ports run ahead: each fetches further blocks in element order, a free number of them, and leaves one of the 16 that it holds
for all slots together to the steps at hand (R153, R154, R163): when a block moves follows from the whorl, the octets and the
traffic, which the model does not count. -/
def State.vAhead (s : State) (k n : Nat) (v : VOps) (kind : VKind) : State :=
  let x := (s.seqr k).slot n
  let r := s.fresh
  let s := r.2
  let w := r.1
  let later := (List.range (v.total - x.elem)).flatMap fun j => v.stepReads kind x.elem x.aux (x.elem + j)
  (List.range 3).foldl (fun s p =>
    let room := min (bvFld w (8 * p) 5) (15 - s.vPortHeld k p)
    let want := (later.filter fun e => e.1 = p && e.2.1.memSrc && ((s.seqr k).block n p (e.addr / 256)).isNone &&
        !s.vAsks k n p (e.addr / 256)).foldl
      (fun (l : List VRd) e => if room ≤ l.length || l.any (fun y => y.addr / 256 = e.addr / 256) then l else l ++ [e]) []
    s.vFillAhead k n x want) s

/-- Corrected data of an element that a step has taken is counted (05 R177). x: the slot before the step. -/
def State.vCorrected (s : State) (k n : Nat) (x : VSlot) (v : VOps) (kind : VKind) (chk : ElemCheck) : State :=
  chk.foldl (fun s c =>
    let e := c.elem.toNat
    let table : List VRd := match kind, v.a with
      | .gather, some a => [(0, a, s.vIndex x v e)]
      | _, _ => []
    if c.chk = .corrected && x.elem ≤ e && e < ((s.seqr k).slot n).elem then
      match (numbered (table ++ v.stepReads kind x.elem x.aux e)).find? fun r =>
          r.1.1 = c.operand.toNat && r.2 = c.part.toNat && r.1.2.1.memSrc && r.1.2.1.region = 0 with
      | some r => s.hankCe r.1.addr
      | none => s
    else s) s

/-- Finish a step from element e: outputs written and published, flags kept, ELEM advanced, a fault recorded. Each element that a
scatter writes to HBM takes an octet of its own (04 R160). -/
def State.vFinish (s : State) (k n : Nat) (v : VOps) (kind : VKind) (rows : List (Nat × VRow)) (used : List VRd) (next : Nat)
    (fault : Option (Nat × Nat × Nat)) : State :=
  let s := rows.foldl (fun s r => match r.2 with | .out i val _ => s.vPut k n v kind i val | _ => s) s
  let s := s.tapPut k n v.d (rows.filterMap fun r => match r.2 with | .out i val _ => some (i.toNat, val) | _ => none)
  let fl := rows.foldl (fun f r => match r.2 with | .out _ _ g => orF f g | .note g => orF f g | _ => f) 0
  let s := s.modSlot k n fun x =>
    { x with state := .running, elem := next, vflags := x.vflags ||| BitVec.ofNat 8 fl }
  let m := srcRate v.opc
  let h := 2 ^ pSpan v.vparam
  let r := if v.opc = 0x079 then 4 else 2
  let aux := ((s.seqr k).slot n).aux
  let roles : List (Option Desc × Nat) :=
    [(v.a, if kind = .expand then aux else if kind = .bfly then next / h * r * h + next % h else next * m),
      (v.b, if kind = .bfly then 0 else next * m), (v.c, next)]
  let s := roles.foldl (fun s x => match x.1 with | some d => s.tapTake k x.1 (tapLow roles d.tapn x.2) | none => s) s
  let s := if kind = .scatter then s.modSlot k n VSlot.close else s
  let s := s.vFlush k n
  match fault with
  | some (e, c, a) => s.vFault k n e c a
  | none => s.vForget k n kind used (v.stepReads kind next aux next) v.twiddleOnce (next % h ≠ 0)

/-- A step of an elementwise operation. After a resume from an ELEM inside a group it covers a whole group from ELEM (DESIGN
CHOICE: R137 does not say where such a step ends). -/
def State.vMapStep (s : State) (k n : Nat) (x : VSlot) (v : VOps) (chk : ElemCheck) : State :=
  let m := min (v.stepLen .map) (v.vlen - x.elem)
  if !s.tapRoom k n v.d m || !s.vRoom k n v then s.vWait k n
  else
    let l := (List.range m).flatMap fun j => v.reads (x.elem + j)
    let s := s.vFill k n x l
    match rowRun (s.vMapRow k n x v chk) m x.elem [] with
    | none => s.vWait k n
    | some (rows, f) => s.vFinish k n v .map rows l (x.elem + rows.length) f

/-- The elements of a reduction's step in order, up to the lowest that waits, faults or, by STRAP, stops as an input (R139). -/
def redScan (read : Nat → VAcc) (takes : Nat → Bool) (addr : Nat → Nat) : List Nat → VAcc ⊕ List Nat
  | [] => .inr []
  | i :: r =>
    match read i with
    | .ok v =>
      if !takes v then .inl (.fault 10 (addr i))
      else match redScan read takes addr r with
        | .inr l => .inr (v :: l)
        | .inl e => .inl e
    | e => .inl e

/-- A reduction takes an element as an input: STRAP does not stop it. -/
def redTakes (opc ta td : Nat) (env : FEnv) (v : Nat) : Bool :=
  match opc with
  | 0x040 => (sumIn ta td env v).isSome
  | 0x041 | 0x042 | 0x043 => (selIn (opc = 0x043) ta env v).isSome
  | _ => true

/-- A step of a reduction; its last step also writes d[0] (R125, R126, R138). A fault of the destination's address comes before
a subnormal stop (R139). FADDR of a subnormal stop is the input's address, and the address of the step's first element where a sum
stopped (DESIGN CHOICE, log entry 52). -/
def State.vRedStep (s : State) (k n : Nat) (x : VSlot) (v : VOps) (chk : ElemCheck) : State :=
  match v.a with
  | none => s
  | some a =>
    let len := v.stepLen .reduce
    let m := min (len - x.elem % max len 1) (v.vlen - x.elem)
    let idx := (List.range m).map fun j => x.elem + j
    let last := v.vlen ≤ x.elem + m
    let l : List VRd := idx.map fun i => (0, a, Int.ofNat i)
    let s := s.vFill k n x l
    let at_ (i : Nat) : Nat := if a.memSrc then a.addr i else 0
    let sub := at_ x.elem
    let dest := if last then s.vDest k v.d 0 else none
    match redScan (fun i => s.vRead k n (0, a, Int.ofNat i) (elemHits chk i 0 0)) (redTakes v.opc a.ty v.d.ty x.env) at_
      idx with
    | .inl (.fault c ad) =>
      match (if c = 10 then dest else none) with
      | some (.fault c ad) => s.vFault k n x.elem c ad
      | some _ => s.vWait k n
      | none => s.vFault k n x.elem c ad
    | .inl _ => s.vWait k n
    | .inr vals =>
      match dest with
      | some (.fault c ad) => s.vFault k n x.elem c ad
      | some _ => s.vWait k n
      | none =>
        match redStep v.opc a.ty v.d.ty x.env (x.elem = 0) x.acc.toNat x.aux (idx.zip vals) with
        | none => s.vFault k n x.elem 10 sub
        | some (acc, aux, fl) =>
          match if last then redOut v.opc a.ty v.d.ty x.env acc else some (acc, 0) with
          | none => s.vFault k n x.elem 10 sub
          | some o =>
            let s := s.modSlot k n fun y => { y with acc := BitVec.ofNat 64 (if last then o.1 else acc), aux := aux }
            s.vFinish k n v .reduce [(0, if last then .out 0 o.1 (orF fl o.2) else .note fl)] l (x.elem + m) none

end Sys2Proof.Machine
end

