-- ==== Sys2Proof/Machine/Microword.lean ====
section
/-! DEFINITION. The microwords of a VOP: fetch with redirects, the fields of microwords and nano-words, wait conditions, branch
conditions, and the µPC's way from one safe point to the next (11 R338 to R346, R349, R353). -/

namespace Sys2Proof.Machine
open Sys2Proof

/-! ## Fields (Tables 11-2, 11-3, 11-5) -/

/-- SEQ of a microword. -/
inductive USeq where
  | next | repeat_ | branch | stop
deriving DecidableEq, Repr

structure Microword where
  nano : Nat
  sp : Bool
  seq : USeq
  pad : Nat
deriving DecidableEq, Repr

def microword (w : Nat) : Microword :=
  { nano := fld w 0 11
    sp := bitOf w 11
    seq := match fld w 12 2 with
      | 0 => .next
      | 1 => .repeat_
      | 2 => .branch
      | _ => .stop
    pad := fld w 14 2 }

/-- A port control. -/
structure PortCtl where
  first : Bool
  move : Bool
  adv : Bool
  unit : Nat
  hold : Bool
deriving DecidableEq, Repr

def portCtl (w : Nat) : PortCtl := ⟨bitOf w 0, bitOf w 1, bitOf w 2, fld w 3 2, bitOf w 5⟩

structure Nanoword where
  target : Nat
  wait : Nat
  wmask : Nat
  brcond : Nat
  fmaop : Nat
  aluop : Nat
  xpop : Nat
  pra : PortCtl
  prb : PortCtl
  prc : PortCtl
  pw : PortCtl
  route : Nat
  tapctl : Nat
  cnt : Nat
  check : Nat
  imm : Nat
deriving DecidableEq, Repr

def nanoword (w : Nat) : Nanoword :=
  { target := fld w 0 13, wait := fld w 13 3, wmask := fld w 16 4, brcond := fld w 20 4, fmaop := fld w 24 10
    aluop := fld w 34 10, xpop := fld w 44 10, pra := portCtl (fld w 54 8), prb := portCtl (fld w 62 8)
    prc := portCtl (fld w 70 8), pw := portCtl (fld w 78 8), route := fld w 86 12, tapctl := fld w 98 8
    cnt := fld w 106 16, check := fld w 122 8, imm := fld w 130 32 }

/-! ## Fetch (R338, R349, R353) -/

/-- The address that is fetched for a ROM micro-address: the TO of the lowest-numbered valid redirect that names it, while
PEN is 1. -/
def Mc.redirect (m : Mc) (a : Nat) : Nat :=
  match m.redir.find? fun e => m.pen && e.2.getLsbD 31 && bvFld e.2 0 13 = a with
  | some e => bvFld e.2 16 13
  | none => a

def Mc.microAt (m : Mc) (a : Nat) : Nat := if a < 0x1000 then (Config.romMicro a).toNat else tabGet 0 m.micro (a - 0x1000)
def Mc.nanoAt (m : Mc) (i : Nat) : Nat := if i < 0x400 then (Config.romNano i).toNat else tabGet 0 m.nano (i - 0x400)

/-- The microword of a fetch at address a, which a redirect has been applied to, with its nano-word. A fetch from a reserved address
or index is never made (R338). -/
def Mc.word (m : Mc) (a : Nat) : Option (Microword × Nanoword) :=
  let u := microword (m.microAt a)
  if 0x1200 ≤ a || 0x480 ≤ u.nano then none else some (u, nanoword (m.nanoAt u.nano))

/-- START and RESUME of an OPC: a valid override of the position's patch, else ROM; a redirect applies to either (R349,
R353). -/
def State.vEntry (s : State) (k opc : Nat) (resume : Bool) : Nat :=
  let m := s.mc (s.posOf k)
  let hit := m.disp.find? fun e => m.pen && e.2.getLsbD 63 && bvFld e.2 0 10 = opc
  m.redirect (match hit with
    | some e => if resume then bvFld e.2 32 13 else bvFld e.2 16 13
    | none => (if resume then Config.romResume opc else Config.romStart opc).toNat)

/-! ## Conditions (R341, R342) -/

/-- The accesses of the step at hand, for every element of it; those of a port. -/
def VOps.allReads (v : VOps) (kind : VKind) (x : VSlot) : List VRd :=
  let m := min (v.stepLen kind) (v.total - x.elem)
  (List.range m).flatMap fun j => v.stepReads kind x.elem x.aux (x.elem + j)

def VOps.portReads (v : VOps) (kind : VKind) (x : VSlot) (p : Nat) : List VRd := (v.allReads kind x).filter fun r => r.1 = p

/-- The wait condition of Table 11-4 for the ports of wmask. -/
def State.uWait (s : State) (k n : Nat) (v : VOps) (kind : VKind) (w : Nanoword) : Bool :=
  let x := (s.seqr k).slot n
  let q := s.seqr k
  let src (f : VRd → Bool) : Bool := (List.range 3).all fun p => !bitOf w.wmask p || (v.portReads kind x p).all f
  let held (region : Nat) (r : VRd) : Bool :=
    !r.2.1.memSrc || r.2.1.region ≠ region || (q.block n r.1 (r.addr / 256)).isSome
  match w.wait with
  | 1 => src (held 0) && (!bitOf w.wmask 3 || s.vRoom k n v)
  | 2 => src fun r => !r.2.1.ctap || (match q.tap r.2.1.tapn with
      | some t => (t.buf[r.2.2.toNat - t.first]?).isSome
      | none => false)
  | 3 => s.tapRoom k n v.d (tapCap v.d.ty / 4)
  | 4 => src (held 1) && (!bitOf w.wmask 3 || v.d.region ≠ 1 || s.entryFree k)
  | 5 => (match kind with
      | .qpush => !s.regionHolds (v.d.base % 2 ^ 16)
      | .qpop => (match v.a with | some a => !s.regionHolds (a.base % 2 ^ 16) | none => true)
      | _ => true)
  | _ => true

/-- The word at the µPC of slot n is one of the patch's, whose contents are known, and waits (R342). A word of ROM waits as
chapters 3 and 4 have the step itself wait (log entry 14). -/
def State.uBlocked (s : State) (k n : Nat) (v : VOps) (kind : VKind) : Bool :=
  let m := s.mc (s.posOf k)
  let a := ((s.seqr k).slot n).upc
  m.pen && decide (0x1000 ≤ a) && (match m.word a with
    | some (_, w) => !s.uWait k n v kind w
    | none => false)

/-- BRCOND (Table 11-3); its reserved values hold never. -/
def State.uCond (s : State) (k n : Nat) (v : VOps) (kind : VKind) (c : Nat) : Bool :=
  let x := (s.seqr k).slot n
  match c with
  | 1 => true
  | 2 => x.elem < v.total
  | 3 => (match v.c with | some m => (match s.vRead k n (2, m, Int.ofNat x.elem) false with | .ok b => b = 1 | _ => false) | none => false)
  | 4 =>
    let t := if kind = .scatter then some v.d else v.a
    (match t with
      | some y => 0 < x.elem && y.addr (s.vIndex x v x.elem) / 256 = y.addr (s.vIndex x v (x.elem - 1)) / 256
      | none => false)
  | 5 => s.inM4 k || (s.cpu k).st.getLsbD 3
  | 6 => (match v.a with | some a => a.ctap | none => false)
  | _ => false

/-! ## From one safe point to the next (R339, R340, R343) -/

/-- The µPC after microwords from address a: each executes when its wait condition holds, and its sequencing follows the actions
of its cycle. It stops before a word that waits, before a safe point once the step has ended, and at END. ends: ends of
steps (CNT[0]) still to come; the waits of the words of a step that has been made have held, for they are the step's own. fuel
bounds the words between two safe points (R345). PAD cycles are time. -/
def State.uRun (s : State) (k n : Nat) (v : VOps) (kind : VKind) : Nat → Nat → Nat → Nat
  | 0, _, a => a
  | fuel + 1, ends, a =>
    let m := s.mc (s.posOf k)
    match m.word a with
    | none => a
    | some (u, w) =>
      let stepEnd := bitOf w.cnt 0
      if ends = 0 && (!s.uWait k n v kind w || u.sp || stepEnd) then a
      else
        let left := if stepEnd then ends - 1 else ends
        match u.seq with
        | .stop => a
        | .next => s.uRun k n v kind fuel left (m.redirect (a + 1))
        | .repeat_ => s.uRun k n v kind fuel left (m.redirect (if s.uCond k n v kind w.brcond then a else a + 1))
        | .branch => s.uRun k n v kind fuel left (m.redirect (if s.uCond k n v kind w.brcond then w.target else a + 1))

/-- The µPC of slot n moves on: over the microwords of the step when it has been made, else up to the word that waits. The words
compute what chapter 3 states of the step, and a patch changes none of it (R345, R350): the step itself is that of VopStep. -/
def State.uMove (s : State) (k n : Nat) (v : VOps) (kind : VKind) (stepped : Bool) : State :=
  s.modSlot k n fun x => { x with upc := s.uRun k n v kind 17 (b2n stepped) x.upc }

end Sys2Proof.Machine
end

