-- ==== Sys2Proof/Machine/VopExec.lean ====
section
/-! DEFINITION. Steps of index, mask, butterfly and queue operations; issue, completion, waiting, resume and discard;
coprocessor 0's registers; HBM requests served (03 R102 to R106, R111 to R118, R124, R127 to R132, R135, R140, 04 R152,
R163, R193 to R195, 08 R297). -/

namespace Sys2Proof.Machine
open Sys2Proof

/-! ## Steps of one element -/

/-- VGATHER: element i (R127). -/
def State.vGatherStep (s : State) (k n : Nat) (x : VSlot) (v : VOps) (chk : ElemCheck) : State :=
  match v.a, v.b with
  | some a, some b =>
    let i := x.elem
    if !s.tapRoom k n v.d 1 || !s.vRoom k n v then s.vWait k n
    else
      let rb : VRd := (1, b, Int.ofNat i)
      let s := s.vFill k n x [rb]
      match s.vRead k n rb (elemHits chk i 1 0) with
      | .fault c ad => s.vFault k n i c ad
      | .wait => s.vWait k n
      | .ok w =>
        let ra : VRd := (0, a, tyVal b.ty w)
        let s := (s.vTable k n ra).vFill k n x [ra]
        match s.vRead k n ra (elemHits chk i 0 0) with
        | .fault c ad => s.vFault k n i c ad
        | .wait => s.vWait k n
        | .ok y =>
          match s.vDest k v.d i with
          | some (.fault c ad) => s.vFault k n i c ad
          | some _ => s.vWait k n
          | none => s.vFinish k n v .gather [(i, .out i y 0)] [ra, rb] (i + 1) none
  | _, _ => s

/-- VSCATTER: element i (R127). -/
def State.vScatterStep (s : State) (k n : Nat) (x : VSlot) (v : VOps) (chk : ElemCheck) : State :=
  match v.a, v.b with
  | some a, some b =>
    let i := x.elem
    if !s.vRoom k n v then s.vWait k n
    else
      let l : List VRd := [(1, b, Int.ofNat i), (0, a, Int.ofNat i)]
      let s := s.vFill k n x l
      match vAll (l.map fun r => s.vRead k n r (elemHits chk i r.1 0)) with
      | .inl (.fault c ad) => s.vFault k n i c ad
      | .inl _ => s.vWait k n
      | .inr r =>
        let j := tyVal b.ty (r.getD 0 0)
        match s.vDest k v.d j with
        | some (.fault c ad) => s.vFault k n i c ad
        | some _ => s.vWait k n
        | none => s.vFinish k n v .scatter [(i, .out j (r.getD 1 0) 0)] l (i + 1) none
  | _, _ => s

/-- VCOMPRESS: element i, with AUX elements moved so far (R124). -/
def State.vCompressStep (s : State) (k n : Nat) (x : VSlot) (v : VOps) (chk : ElemCheck) : State :=
  match v.a, v.c with
  | some a, some c =>
    let i := x.elem
    if !s.vRoom k n v then s.vWait k n
    else
      let l : List VRd := [(0, a, Int.ofNat i), (2, c, Int.ofNat i)]
      let s := s.vFill k n x l
      match vAll (l.map fun r => s.vRead k n r (elemHits chk i r.1 0)) with
      | .inl (.fault f ad) => s.vFault k n i f ad
      | .inl _ => s.vWait k n
      | .inr r =>
        if r.getD 1 0 = 0 then s.vFinish k n v .compress [] l (i + 1) none
        else
          match s.vDest k v.d x.aux with
          | some (.fault f ad) => s.vFault k n i f ad
          | some _ => s.vWait k n
          | none =>
            (s.modSlot k n fun y => { y with aux := x.aux + 1 }).vFinish k n v .compress [(i, .out x.aux (r.getD 0 0) 0)] l
              (i + 1) none
  | _, _ => s

/-- VEXPAND: element i receives a[AUX] under the mask (R124). The port asks for a's blocks whatever the mask says (04 R160). -/
def State.vExpandStep (s : State) (k n : Nat) (x : VSlot) (v : VOps) (chk : ElemCheck) : State :=
  match v.a, v.c with
  | some a, some c =>
    let i := x.elem
    if !s.vRoom k n v then s.vWait k n
    else
      let ra : VRd := (0, a, Int.ofNat x.aux)
      let rc : VRd := (2, c, Int.ofNat i)
      let s := s.vFill k n x [rc, ra]
      match s.vRead k n rc (elemHits chk i 2 0) with
      | .fault f ad => s.vFault k n i f ad
      | .wait => s.vWait k n
      | .ok 0 => s.vFinish k n v .expand [] [rc] (i + 1) none
      | .ok _ =>
        match s.vRead k n ra (elemHits chk i 0 0) with
        | .fault f ad => s.vFault k n i f ad
        | .wait => s.vWait k n
        | .ok y =>
          match s.vDest k v.d i with
          | some (.fault f ad) => s.vFault k n i f ad
          | some _ => s.vWait k n
          | none =>
            (s.modSlot k n fun z => { z with aux := x.aux + 1 }).vFinish k n v .expand [(i, .out i y 0)] [rc, ra] (i + 1) none
  | _, _ => s

/-- The twiddle stream of a pass: the elements that the twiddle buffer takes (04 R161). -/
def VOps.twiddles (v : VOps) : List VRd :=
  match v.b with
  | some b => (List.range ((if v.opc = 0x079 then 3 else 1) * 2 ^ pSpan v.vparam)).map fun i => (1, b, Int.ofNat i)
  | none => []

/-- One butterfly (R129). Under R161's conditions the first one fills the twiddle buffer. A fault of a destination's address
comes before a subnormal stop (R139). -/
def State.vBflyStep (s : State) (k n : Nat) (x : VSlot) (v : VOps) (chk : ElemCheck) : State :=
  match v.a with
  | none => s
  | some a =>
    let e := x.elem
    let r := if v.opc = 0x079 then 4 else 2
    let h := 2 ^ pSpan v.vparam
    let pts := (List.range r).map fun m => e / h * r * h + e % h + m * h
    let l := v.stepReads .bfly e x.aux e
    if !s.vRoom k n v then s.vWait k n
    else
      let s := if v.twiddleOnce then s.vFill k n x v.twiddles else s
      let s := s.vFill k n x l
      match vAll ((numbered l).map fun y => s.vRead k n y.1 (elemHits chk e y.1.1 y.2)) with
      | .inl (.fault c ad) => s.vFault k n e c ad
      | .inl _ => s.vWait k n
      | .inr vals =>
        let dst := pts.map fun (p : Nat) => s.vDest k v.d (Int.ofNat p)
        match dst.find? fun o => match o with | some (.fault _ _) => true | _ => false with
        | some (some (.fault c ad)) => s.vFault k n e c ad
        | _ =>
          if dst.any Option.isSome then s.vWait k n
          else
            let xs := vals.take r
            let ws := vals.drop r
            let res := if v.d.ty = 12 then some (bflyI (r = 4) (pInv v.vparam) x.env (pQshift v.vparam) (pScale v.vparam) xs ws)
              else bflyF (r = 4) (pInv v.vparam) v.d.ty x.env xs ws
            match res with
            | none => s.vFault k n e 10 (if a.memSrc then a.addr (pts.headD 0) else 0)
            | some (ys, fl) =>
              s.vFinish k n v .bfly ((pts.zip ys).map fun p => (e, VRow.out (Int.ofNat p.1) p.2 fl)) l (e + 1) none

/-- A queue stream may name queue q: a queue of the spindle's partition that is not FREE (R110, 06 R522). -/
def State.vQueueOk (s : State) (k q : Nat) : Bool :=
  (s.queue q).state ≠ .free && s.partOf k = some (s.queue q).owner.toNat

/-- VQPUSH: item i (R131). -/
def State.vPushStep (s : State) (k n : Nat) (x : VSlot) (v : VOps) (chk : ElemCheck) : State :=
  match v.a with
  | none => s
  | some a =>
    let i := x.elem
    let q := v.d.base % 2 ^ 16
    let ra : VRd := (0, a, Int.ofNat i)
    if !s.vQueueOk k q then s.vFault k n i 5 q
    else if s.regionHolds q then s.vWait k n
    else
      let s := s.vFill k n x [ra]
      match s.vRead k n ra (elemHits chk i 0 0) with
      | .fault c ad => s.vFault k n i c ad
      | .wait => s.vWait k n
      | .ok w =>
        let len := fld w 448 8
        if len = 0 || 56 < len then s.vFault k n i 9 q
        else
          let r := s.corePush k q (some { len := len, payload := BitVec.ofNat 448 w }) false
          if r.1 then r.2.vFinish k n v .qpush [] [ra] (i + 1) none else r.2.vFault k n i 8 q

/-- VQPOP: item i (R132). cell: what the check bits of the item's words say (06 R213, R214). -/
def State.vPopStep (s : State) (k n : Nat) (x : VSlot) (v : VOps) (cell : CellCheck) : State :=
  match v.a with
  | none => s
  | some a =>
    let i := x.elem
    let q := a.base % 2 ^ 16
    if !s.vQueueOk k q then s.vFault k n i 5 q
    else if s.regionHolds q || !s.tapRoom k n v.d 1 || !s.vRoom k n v then s.vWait k n
    else
      match s.vDest k v.d i with
      | some (.fault c ad) => s.vFault k n i c ad
      | some _ => s.vWait k n
      | none =>
        let r := s.corePop k q cell
        match r.1 with
        | none => r.2.vFault k n i 7 q
        | some (it, p) => r.2.vFinish k n v .qpop [(i, .out i (item64 it p).toNat (flagIf p fPSN))] [] (i + 1) none

/-- The sequencer of spindle k works: a skein or a handler runs there, or the spindle is in the idle wait, where what a handler
issued goes on (03 R131); and the node is not in FAULT (17 R504). -/
def State.vActive (s : State) (k : Nat) : Bool :=
  s.node ≠ .fault && ((s.disp k).running.isSome || (s.disp k).handler || (s.core k).run = .idle) && (s.disp k).stop.isNone

/-- The step of the VOP in slot n that its kind makes. -/
def State.vKindStep (s : State) (k n : Nat) (x : VSlot) (v : VOps) (kind : VKind) (chk : ElemCheck) (cell : CellCheck) : State :=
  match kind with
  | .map => s.vMapStep k n x v chk
  | .reduce => s.vRedStep k n x v chk
  | .gather => s.vGatherStep k n x v chk
  | .scatter => s.vScatterStep k n x v chk
  | .compress => s.vCompressStep k n x v chk
  | .expand => s.vExpandStep k n x v chk
  | .bfly => s.vBflyStep k n x v chk
  | .qpush => s.vPushStep k n x v chk
  | .qpop => s.vPopStep k n x v cell

/-- One step of slot n, which works: the element function, the count of corrected data, the µPC. Where a word of the patch waits
(11 R342) the ports go on fetching and the slot waits. -/
def State.vCore (s : State) (k n : Nat) (chk : ElemCheck) (cell : CellCheck) : State :=
  let x := (s.seqr k).slot n
  let v := x.ops
  match vopInfo v.opc with
  | none => s
  | some (kind, _) =>
    if s.uBlocked k n v kind then (s.vFill k n x (v.allReads kind x)).vWait k n
    else
      let s := (s.vKindStep k n x v kind chk cell).vCorrected k n x v kind chk
      s.uMove k n v kind (decide (x.elem < ((s.seqr k).slot n).elem))

def VState.works (x : VState) : Bool := x = .running || x = .waiting

/-- The sequencer has halted: every other slot that works stops at its next safe point (R138). A slot whose step ends in the
same cycle makes it, and may record a fault of its own (R139, 11 R344); whether it does is a free choice. rest: what the check
bits say of those steps. -/
def State.vStopRest (s : State) (k : Nat) (rest : List (SlotId × ElemCheck) := []) : State :=
  if !(s.seqr k).halted then s
  else
    (List.range 16).foldl (fun s n =>
      if !((s.seqr k).slot n).state.works then s
      else
        let r := s.fresh
        let x := (s.seqr k).slot n
        let chk := ((rest.find? fun e => e.1.toNat = n).map Prod.snd).getD []
        let s := if r.1.getLsbD 0 && x.elem < x.ops.total then r.2.vCore k n chk .ok else r.2
        if ((s.seqr k).slot n).state.works then (s.modSlot k n fun x => { x.close with state := .stopped }).vFlush k n else s) s

/-- The ports of a slot that runs on fetch ahead. -/
def State.vPrefetch (s : State) (k n : Nat) : State :=
  let x := (s.seqr k).slot n
  match vopInfo x.ops.opc with
  | some (kind, _) => if x.state.works && x.elem < x.ops.total then s.vAhead k n x.ops kind else s
  | none => s

/-- One step of the VOP in slot n, and what follows from it. -/
def State.vStep (s : State) (k n : Nat) (chk : ElemCheck) (cell : CellCheck) (rest : List (SlotId × ElemCheck) := []) : State :=
  let x := (s.seqr k).slot n
  if !s.vActive k || !x.state.works || x.ops.total ≤ x.elem then s
  else ((s.vCore k n chk cell).vStopRest k rest).vPrefetch k n

def execVopStep (k : Spindle) (slot : SlotId) (chk : StepCheck) (s : State) : Host.Outcome State Fault Refusal :=
  .next (s.vStep k.toNat slot.toNat chk.data chk.cell chk.rest)

/-! ## Completion (R105, R112, R116, R135, 04 R158) -/

/-- Every write of slot n has been acknowledged. -/
def State.vWritten (s : State) (k n : Nat) : Bool :=
  let x := (s.seqr k).slot n
  x.outq.isEmpty && x.wbuf.isEmpty && (s.reqs k).all fun r => r.src ≠ .port n 3 || r.ctx ≠ s.vCtx k

/-- The W port of a slot sends what it holds. -/
def State.vClose (s : State) (k n : Nat) : State :=
  if ((s.seqr k).slot n).wbuf.isEmpty then s.vFlush k n else (s.modSlot k n VSlot.close).vFlush k n

/-- Result word (Table 3-9). -/
def vResult (x : VSlot) : Nat :=
  if x.vlen = 0 then 0
  else match x.opc.toNat with
    | 0x060 | 0x061 | 0x041 | 0x042 | 0x043 => x.aux
    | _ => 0

/-- A slot's read ports are empty: what they held goes, and what they asked for is dropped when it comes. -/
def State.vEmpty (s : State) (k n : Nat) : State :=
  let q := s.seqr k
  let c := s.vCtx k
  let s := s.setSeqr k { q with arrived := q.arrived.filter fun b => b.slot ≠ n }
  s.setReqs k ((s.reqs k).map fun r => match r.src with
    | .port m _ => if m = n && r.ctx = c && !r.write then { r with dropped := true } else r
    | _ => r)

/-- The slot becomes DONE: its flags go to VFSTAT, the taps it consumed unbind, and its read ports empty: a block still on its way
is no later VOP's. -/
def State.vDone (s : State) (k n : Nat) : State :=
  let x := (s.seqr k).slot n
  if !s.vActive k || !x.state.works || x.elem < x.ops.total then s
  else
    let s := s.vClose k n
    let q := s.seqr k
    let x := q.slot n
    if !s.vWritten k n then s
    else
      let s := s.vEmpty k n
      let q := (s.seqr k).setSlot n { x with state := .done, aux := vResult x, snap := [] }
      let taps := q.taps.filter fun e => match e.2 with | some t => t.cons ≠ some n | none => false
      s.setSeqr k { q with
        taps := taps
        vfstat := q.vfstat ||| x.vflags.setWidth 64 }

def execVopDone (k : Spindle) (slot : SlotId) (s : State) : Host.Outcome State Fault Refusal :=
  .next (s.vDone k.toNat slot.toNat)

/-! ## Issue (R102, R103, R106, R138) -/

/-- The VOP copied into slot n is issued: its taps bind, or its issue fault is recorded and the sequencer halts. While the
sequencer is halted it becomes QUEUED (R138); its taps bind all the same, at issue (R133, R134), and a fault found at issue is
recorded when VRESUME starts it. -/
def State.vStart (s : State) (k n : Nat) (queued : Bool) : State :=
  let q := s.seqr k
  let x := q.slot n
  match issueFault q x.ops with
  | some f => if queued then s.setSeqr k (q.setSlot n { x with state := .queued, recheck := true }) else s.vFault k n 0 f 0
  | none => s.setSeqr k ((q.bind n x.ops).setSlot n { x with state := if queued then .queued else .running })

/-- VFCTL as it applies: FZI, FZO and STRAP forced by the partition's mode (R117). -/
def State.vfctlOf (s : State) (k : Nat) (v : DWord) : DWord :=
  let v := if s.modeOf k = some 3 then v else bvSet v 4 1 0
  if s.flushForced k then bvSet v 2 2 3 else v

/-- Issue into the next slot; while the sequencer is halted the VOP becomes QUEUED. -/
def State.vIssue (s : State) (k opc : Nat) (d a b c : SlotId) : State :=
  let q := s.seqr k
  let n := q.next % 16
  let desc (r : SlotId) : Desc := tabGet 0 q.sd r.toNat
  let x : VSlot :=
    { state := .queued, opc := BitVec.ofNat 10 opc, d := desc d, a := desc a, b := desc b, c := desc c, vlen := q.vlen,
      vparam := q.vparam, vfctl := s.vfctlOf k q.vfctl, upc := s.vEntry k opc false }
  let s' := s.setSeqr k { q.setSlot n x with next := (n + 1) % 16 }
  (s'.vStart k n q.halted).vStopRest k

def execVopIssue (k : Spindle) (opc : BitVec 10) (d a b e : SlotId) (s : State) : Host.Outcome State Fault Refusal :=
  let c := k.toNat
  .next (s.issue c [] fun s =>
    if !vopListed opc.toNat then
      s.raiseWord c 1 (BitVec.ofNat 32 (0x38 * 2 ^ 26 + opc.toNat * 2 ^ 16 + d.toNat * 2 ^ 12 + a.toNat * 2 ^ 8 +
        b.toNat * 2 ^ 4 + e.toNat))
    else
      let st := ((s.seqr c).slot ((s.seqr c).next % 16)).state
      if st ≠ .free && st ≠ .done then s else (s.vIssue c opc.toNat d a b e).advance c)

/-! ## VWAIT, VWAITALL, VRESUME, VDISCARD (R105, R140) -/

def execVwait (k : Spindle) (rd : RegId) (slot : SlotId) (s : State) : Host.Outcome State Fault Refusal :=
  let c := k.toNat
  .next (s.issue c [rd] fun s =>
    let q := s.seqr c
    let x := q.slot slot.toNat
    if q.halted then s.result c rd (BitVec.allOnes 64)
    else if x.state = .free || x.state = .done then s.result c rd (BitVec.ofNat 64 x.aux)
    else s)

def execVwaitAll (k : Spindle) (s : State) : Host.Outcome State Fault Refusal :=
  let c := k.toNat
  .next (s.issue c [] fun s => if (s.seqr c).halted || (s.seqr c).quiet then s.advance c else s)

/-- One slot restarts (R140): a stopped or queued slot, or a faulted one whose fault lay at an element, runs on, with its
ports empty, from RESUME (11 R346); one that faulted at issue is checked again. FADDR clears with FCODE (DESIGN CHOICE: R140
names FCODE only). -/
def State.vRestart (s : State) (k n : Nat) : State :=
  let q := s.seqr k
  let x := q.slot n
  let y := { x with fcode := 0, faddr := 0, recheck := false, upc := s.vEntry k x.opc.toNat true }
  let run := s.setSeqr k (q.setSlot n { y with state := .running })
  match x.state with
  | .queued => if x.recheck then (s.setSeqr k (q.setSlot n y)).vStart k n false else run
  | .stopped => run
  | .faulted => if 1 ≤ x.fcode.toNat && x.fcode.toNat ≤ 3 then (s.setSeqr k (q.setSlot n y)).vStart k n false else run
  | _ => s

/-- VRESUME: every halted slot restarts, in order of issue; a slot that faults at once halts the sequencer again, and the others
stop at their next safe points. -/
def State.vResume (s : State) (k : Nat) : State :=
  let q := s.seqr k
  if !q.halted then s
  else
    let s := s.setSeqr k { q with halted := false }
    ((List.range 16).foldl (fun s i =>
      let n := (q.next + i) % 16
      let st := ((s.seqr k).slot n).state
      if st = .queued || st = .stopped || st = .faulted then (s.vEmpty k n).vRestart k n else s) s).vStopRest k

def execVresume (k : Spindle) (s : State) : Host.Outcome State Fault Refusal :=
  let c := k.toNat
  .next (s.issue c [] fun s => (s.vResume c).advance c)

/-- VDISCARD: slots that are not DONE become FREE, their flags go to VFSTAT, every tap unbinds. VPROG0 to VPROG3 and the VWAIT
result
of a slot so freed read 0 (DESIGN CHOICE, log entry 146: R140 does not say what they read). What they have written to
HBM and not yet sent is written. -/
def Seqr.discard (q : Seqr) : Seqr :=
  let fl := q.slots.foldl (fun f e => if e.2.state = .done then f else f ||| e.2.vflags) (0 : Byte)
  { q with
    slots := q.slots.filter fun e => e.2.state = .done
    taps := []
    arrived := []
    vfstat := q.vfstat ||| fl.setWidth 64 }

def execVdiscard (k : Spindle) (s : State) : Host.Outcome State Fault Refusal :=
  let c := k.toNat
  .next (s.issue c [] fun s =>
    let l := (s.reqs c).map fun r => match r.src with
      | .port _ _ => if r.ctx = s.vCtx c && !r.write then { r with dropped := true } else r
      | _ => r
    let u := s.spillSlots c (s.seqr c)
    let s := (s.spill (s.seqr c)).modDisp c fun d => { d with running := d.running.map fun x => { x with hbmSlots := x.hbmSlots + u } }
    ((s.setReqs c l).setSeqr c (s.seqr c).discard).advance c)

/-! ## CP0 registers (R107, R111 to R118, 04 Table 4-2, 08 Table 8-17) -/

def vstateCode : VState → Nat
  | .free => 0
  | .queued => 1
  | .running => 2
  | .waiting => 3
  | .stopped => 4
  | .faulted => 5
  | .done => 6

/-- VSTAT (Table 3-7). -/
def Seqr.vstat (q : Seqr) : Nat :=
  (List.range 16).foldl (fun a n =>
    let st := (q.slot n).state
    if st = .free || st = .done then a else a + 2 ^ n) 0 + q.next % 16 * 2 ^ 16 + b2n q.halted * 2 ^ 20 +
    (List.range 8).foldl (fun a n => if (q.tap n).isSome then a + 2 ^ (24 + n) else a) 0

/-- WPHASE (Table 4-2). -/
def wphase (u : Nat) : Nat := u % 8 + u % 9 * 2 ^ 4 + u / 9 % 8 * 2 ^ 8

/-- Read CP0 register cr. -/
def State.cp0Read (s : State) (k cr : Nat) (h : Bool) : DWord :=
  let q := s.seqr k
  let x := q.slot q.vslotsel
  match cr with
  | 0x10 => BitVec.ofNat 64 q.vlen
  | 0x11 => q.vparam
  | 0x12 => s.vfctlOf k q.vfctl
  | 0x13 => q.vfstat
  | 0x14 => BitVec.ofNat 64 q.vstat
  | 0x15 => BitVec.ofNat 64 q.vslotsel
  | 0x16 => BitVec.ofNat 64 (wphase s.clock.u)
  | 0x18 => BitVec.ofNat 64 (x.elem + vstateCode x.state * 2 ^ 28 + x.opc.toNat * 2 ^ 32)
  | 0x19 => x.acc
  | 0x1A => BitVec.ofNat 64 x.aux
  | 0x1B => BitVec.ofNat 64 (x.vflags.toNat + x.fcode.toNat * 2 ^ 8 + x.faddr * 2 ^ 16)
  | _ =>
    if cr < 0x10 then
      let d : Desc := tabGet 0 q.sd cr
      if h then (d >>> 64).setWidth 64 else d.setWidth 64
    else 0

/-- Write CP0 register cr. -/
def State.cp0Write (s : State) (k cr : Nat) (h : Bool) (v : DWord) : State :=
  let q := s.seqr k
  let n := q.vslotsel
  let x := q.slot n
  let halted := x.state = .stopped || x.state = .faulted
  s.setSeqr k (match cr with
    | 0x10 => if bvFld v 0 25 ≤ 16777216 then { q with vlen := bvFld v 0 25 } else q
    | 0x11 => { q with vparam := v }
    | 0x12 =>
      let w := v &&& 0x1F
      let w := if s.flushForced k then bvSet w 2 3 (bvFld q.vfctl 2 3) else if s.modeOf k = some 3 then w else bvSet w 4 1 (bvFld q.vfctl 4 1)
      { q with vfctl := w }
    | 0x13 => { q with vfstat := v &&& 0xFF }
    | 0x15 => { q with vslotsel := bvFld v 0 4 }
    | 0x18 => if halted then q.setSlot n { x with elem := bvFld v 0 25 } else q
    | 0x19 => if halted then q.setSlot n { x with acc := v } else q
    | 0x1A => if halted then q.setSlot n { x with aux := bvFld v 0 25 } else q
    | _ =>
      if cr < 0x10 then
        let d : Desc := tabGet 0 q.sd cr
        let d := bvSet d (if h then 64 else 0) 64 v.toNat &&& descMask
        { q with sd := tabSet 0 q.sd cr d }
      else q)

/-- Word of major 0x39. -/
def wCp0 (rd rs1 cr : RegId) (h : Bool) (f : Nat) : Word := wReg 0x39 rd rs1 cr (16 * b2n h) f

def execMfc0 (k : Spindle) (rd cr : RegId) (h : Bool) (s : State) : Host.Outcome State Fault Refusal :=
  let c := k.toNat
  .next (s.issue c [rd] fun s =>
    if h && 0x0F < cr.toNat then s.raiseWord c 1 (wCp0 rd 0 cr h 0) else s.result c rd (s.cp0Read c cr.toNat h))

def execMtc0 (k : Spindle) (rs1 cr : RegId) (h : Bool) (s : State) : Host.Outcome State Fault Refusal :=
  let c := k.toNat
  .next (s.issue c [rs1] fun s =>
    if h && 0x0F < cr.toNat then s.raiseWord c 1 (wCp0 0 rs1 cr h 1)
    else (s.cp0Write c cr.toNat h (s.g c rs1)).advance c)

/-! ## HBM requests served (04 R163, 05 R189, R193 to R195) -/

/-- A block reaches the port that asked for it, as its VOP sees its sources (R136). -/
def Seqr.arrive (q : Seqr) (s : State) (n p unit : Nat) (bad : Bool) : Seqr :=
  { q with arrived := q.arrived ++ [⟨n, p, unit, s.vBytes (q.slot n) (unit * 256) 256, bad, false⟩] }

/-- A unit of an outstanding load comes; the data is read with the last of them. -/
def Cpu.loadUnit (c : Cpu) (s : State) (bad : Bool) : Cpu :=
  match c.outLoad with
  | none => c
  | some o =>
    if o.waits = 0 then c
    else
      let resp := if bad || o.resp.isNone then none
        else if o.waits = 1 then some (natOfBytes (s.bytes o.addr.toNat (ldSize o.op))) else o.resp
      { c with outLoad := some { o with resp := resp, waits := o.waits - 1 } }

/-- What a served request leaves with a sequencer and a core, running or saved. -/
def HbmReq.leaves (r : HbmReq) (s : State) (bad : Bool) (q : Seqr) (c : Cpu) : Seqr × Cpu :=
  if r.write then (q, c)
  else match r.src with
    | .port n p => (q.arrive s n p r.block bad, c)
    | .core => (q, c.loadUnit s bad)
    | .trace => (q, c)

def HbmReq.leavesIn (r : HbmReq) (s : State) (bad : Bool) (i : Image) : Image :=
  let x := r.leaves s bad i.seqr i.cpu
  { i with seqr := x.1, cpu := x.2.landLoad }

/-- The unit reaches the skein or the handler it belongs to, running, saved or gone back to the idle wait (R163, 03 R131). slots:
the reserved slots it took (02 R95). -/
def State.deliverUnit (s : State) (k : Nat) (r : HbmReq) (bad : Bool) (slots : Nat) : State :=
  let d := s.disp k
  let count (x : Skein) : Skein := { x with hbmSlots := x.hbmSlots + slots }
  if r.ctx = s.vCtx k && (d.running.isSome || d.handler || d.savedHandler.isNone) then
    let x := r.leaves s bad (s.seqr k) (s.cpu k)
    ((s.modDisp k fun d => { d with running := d.running.map count }).setSeqr k x.1).modCpu k fun _ => x.2
  else
    match r.ctx with
    | none => s.modDisp k fun d => { d with savedHandler := d.savedHandler.map (r.leavesIn s bad) }
    | some c => s.modDisp k fun d => { d with saved := d.saved.map fun p =>
        if p.2.ctx = c then (p.1, { count p.2 with image := p.2.image.map (r.leavesIn s bad) }) else p }

/-- Written units that wait, and trace units, take the entries that are free. -/
def State.hbmDrain (s : State) (k : Nat) : State :=
  ((List.range 16).foldl (fun s n => if ((s.seqr k).slot n).outq.isEmpty then s else s.vFlush k n) s).traceDrain k

/-- HBM_REQUEST_SERVICE: entry e is served when it is the spindle's oldest request of its pseudo-channel and an octet serves
it; a write lands; the entry is freed. -/
def State.serveRequest (s : State) (k e : Nat) (chk : DataCheck) : State :=
  let l := s.reqs k
  match l[e]? with
  | none => s
  | some r =>
    let pc := r.block % 128
    if (l.take e).any (fun y => y.block % 128 = pc) || !s.octetServes k pc r.stamp then s
    else
      let slots := if s.holdsOctet k pc then 8 else 0
      let s := s.setReqs k (l.take e ++ l.drop (e + 1))
      let s := if r.write then (if r.src = .trace && s.pcRetired (r.block * 256) then s else s.pokeAll r.data) else s.memCheck (r.block * 256) chk
      let s := if !r.dropped then s.deliverUnit k r (chk = .uncorrectable) slots
        else match r.ctx with
          | some c => s.countSlots k c none slots
          | none => s
      s.hbmDrain k

def execHbmRequestService (k : Spindle) (e : BitVec 5) (chk : DataCheck) (s : State) : Host.Outcome State Fault Refusal :=
  .next (s.serveRequest k.toNat e.toNat chk)

end Sys2Proof.Machine
end

