-- ==== Sys2Proof/Machine/Shuttles.lean ====
section
/-! DEFINITION. Shuttle channels (13 R385 to R397, R404): arming, the choice of a list, running a descriptor, halts and the
commands of SH_CTL. Channel k of hoop h is kept under its logical spindle 8h + k. -/

namespace Sys2Proof.Machine
open Sys2Proof

/-! ## Descriptors (Table 13-1, R387) -/

structure ShDesc where
  src : Nat
  sfix : Bool
  dst : Nat
  dfix : Bool
  len : Nat
  irq : Bool
  last : Bool
  qsrc : Bool
  qdst : Bool
  next : Nat
  /-- a reserved field is not zero -/
  rsvd : Bool
deriving DecidableEq, Repr

def shDesc (l : List Byte) : ShDesc :=
  let w0 := natOfBytes (l.take 8)
  let w1 := natOfBytes ((l.drop 8).take 8)
  let w2 := natOfBytes ((l.drop 16).take 8)
  let w3 := natOfBytes ((l.drop 24).take 8)
  let qs := bitOf w2 34
  let qd := bitOf w2 35
  { src := fld w0 0 48, sfix := bitOf w0 48, dst := fld w1 0 48, dfix := bitOf w1 48, len := fld w2 0 24
    irq := bitOf w2 32, last := bitOf w2 33, qsrc := qs, qdst := qd, next := fld w3 0 48
    rsvd := fld w0 49 15 ≠ 0 || fld w1 49 15 ≠ 0 || fld w2 24 8 ≠ 0 || fld w2 36 28 ≠ 0 || fld w3 48 16 ≠ 0 ||
      (qs && fld w0 16 32 ≠ 0) || (qd && fld w1 16 32 ≠ 0) }

/-- A malformed descriptor (R387); NEXT is not looked at when LAST is 1. -/
def ShDesc.malformed (d : ShDesc) : Bool :=
  d.rsvd || d.len < 32 || 16777184 < d.len || d.len % 32 ≠ 0 || ((d.qsrc || d.qdst) && d.len % 64 ≠ 0) ||
    (!d.qsrc && d.src % 32 ≠ 0) || (!d.qdst && d.dst % 32 ≠ 0) || (!d.last && d.next % 32 ≠ 0) || (d.qsrc && d.qdst) ||
    (d.sfix && d.qsrc) || (d.dfix && d.qdst)

/-! ## What a channel reaches (R385) -/

inductive ShAcc where
  | ok
  /-- a hank of another hoop without fabric cycles (04 R156), or an HBM request that no octet serves yet (05 R193) -/
  | wait
  | err
deriving DecidableEq, Repr

def hostWindow : Nat := 0x020000000000

/-- An access of the channel of spindle k at address a. -/
def State.shReach (s : State) (k a : Nat) : ShAcc :=
  if 0x010000000000 ≤ a && a < 0x010010000000 then
    let n := (a - 0x010000000000) / 0x400000
    let h := s.hank n
    let own := decide (n / 4 = k / 8)
    if !own && s.partOf k = some h.owner.toNat && h.fabPending then .wait
    else if !h.serving then .err
    else if own && h.owner = 16 then .ok
    else match s.partOf k with
      | none => .err
      | some p =>
        if h.owner.toNat ≠ p then .err
        else if own || (h.faben && h.fabhoop.toNat = k / 8) then .ok
        else .wait
  else match s.partOf k with
    | none => .err
    | some p =>
      if a < 0x0017FC000000 then (if !s.hbmServes a p then .err else if s.hbmNow k a 32 then .ok else .wait)
      else if hostWindow ≤ a && a < 2 ^ 48 then (if s.rst.perstLow then .err else .ok)
      else .err

/-- The function a shuttle's host accesses take (15 R430). -/
def State.shFn (s : State) (k : Nat) : Nat := (s.partOf k).getD 16

/-- Read n bytes; host memory answers with values the manual does not give. -/
def State.shRead (s : State) (k a n : Nat) : List Byte × State :=
  if hostWindow ≤ a then s.hostRead (s.shFn k) (a - hostWindow) n true else (s.bytes a n, s)

def State.shWrite (s : State) (k a : Nat) (l : List Byte) : State :=
  if hostWindow ≤ a then s.hostPut (s.shFn k) (a - hostWindow) l else s.poke a l

/-! ## Running a descriptor (R391, R394) -/

/-- How a descriptor ends: complete; not yet (an access waits); or a halt with its cause, address, direction (true: write),
DONEB, and the bytes of the source that were read. -/
inductive ShEnd where
  | done
  | wait
  | halt (cause addr : Nat) (dir : Bool) (doneb read : Nat)
deriving DecidableEq, Repr

/-- Address of byte i of a side: a fixed side repeats the 256 bytes at its address. -/
def sideAddr (a : Nat) (fix : Bool) (i : Nat) : Nat := if fix then a + i % 256 else a + i

/-- Read chunk i of the source. A fixed side's block is read once and held (R391): its bytes are those of the first reading. old:
the state at the descriptor's start. -/
def State.shSource (s old : State) (k : Nat) (d : ShDesc) (i : Nat) : List Byte × State :=
  let a := sideAddr d.src d.sfix i
  if d.sfix then ((old.shRead k a 32).1, if i < 256 then (s.shRead k a 32).2 else s) else s.shRead k a 32

/-- The bytes of chunk i as the channel read them: where the descriptor itself wrote them within the last 2 KiB, the read may
have come before or after that write (R391). bit: the free choice. -/
def State.shChunk (s old : State) (k : Nat) (d : ShDesc) (i : Nat) (bit : Bool) : List Byte × State :=
  let a := sideAddr d.src d.sfix i
  let back := i + d.dst - a
  let meets := !d.dfix && decide (d.dst ≤ a) && decide (a < d.dst + i) && decide (back ≤ 2048)
  if !d.sfix && meets && bit && a < hostWindow then (old.bytes a 32, s) else s.shSource old k d i

/-- The chunks from byte i on, beyond DONEB, may or may not have been written (R394). -/
def State.shTail (s old : State) (k : Nat) (d : ShDesc) (i : Nat) (v : DWord) : Nat → State
  | 0 => s
  | j + 1 =>
    let b := i + 32 * j
    let s' := State.shTail s old k d i v j
    let src := sideAddr d.src d.sfix b
    let dst := sideAddr d.dst d.dfix b
    if d.len ≤ b || !v.getLsbD j || s.shReach k src ≠ .ok || s.shReach k dst ≠ .ok then s'
    else
      let r := s'.shChunk old k d b false
      r.2.shWrite k dst r.1

/-- The bytes from a failing write on that shTail may have written, and so had been read. -/
def tailBytes (v : DWord) : Nat := (List.range 63).foldl (fun n j => if v.getLsbD j then 32 * (j + 1) else n) 0

/-- Move the chunks of 32 bytes from byte i on, n of them at most. -/
def State.shCopy (old : State) (k : Nat) (d : ShDesc) (v : DWord) (i : Nat) : Nat → State → ShEnd × State
  | 0, s => (.done, s)
  | n + 1, s =>
    if d.len ≤ i then (.done, s)
    else
      let src := sideAddr d.src d.sfix i
      let dst := sideAddr d.dst d.dfix i
      match s.shReach k src, s.shReach k dst with
      | .wait, _ => (.wait, s)
      | .err, _ => (.halt 1 src false i i, s)
      | .ok, .wait => (.wait, s)
      | .ok, .err =>
        let f := s.fresh
        (.halt 2 dst true i (min d.len (i + 32 + tailBytes f.1)), State.shTail f.2 old k d (i + 32) f.1 63)
      | .ok, .ok =>
        let r := s.shChunk old k d i (v.getLsbD (i / 32 % 64))
        State.shCopy old k d v (i + 32) n (r.2.shWrite k dst r.1)

/-- The channel reaches queue q: a queue of its spindle's partition. A push to a FREE queue is discarded there (06 R522); a channel
of no partition reaches no queue (R385). -/
def State.shQueue (s : State) (k q : Nat) (push : Bool) : ShAcc :=
  if push && (s.queue q).state = .free && (s.partOf k).isSome then .ok
  else if !s.reachesQueue (.hs (BitVec.ofNat 7 k)) q then .err
  else if s.regionHolds q then .wait
  else .ok

/-- The address of an operation on queue q in its window (06 R224). -/
def queueWindow (q o : Nat) : Nat := 0x012000000000 + q % 2 ^ 16 * 0x200 + o

/-- QSRC: each 64 bytes is one POP, its record written to the destination. chk: what the check bits of the popped cells say. -/
def State.shPops (k : Nat) (d : ShDesc) (i : Nat) (chk : List CellCheck) : Nat → State → ShEnd × State
  | 0, s => (.done, s)
  | n + 1, s =>
    if d.len ≤ i then (.done, s)
    else
      let dst := sideAddr d.dst d.dfix i
      let dst2 := sideAddr d.dst d.dfix (i + 32)
      match s.shQueue k d.src false, s.shReach k dst, s.shReach k dst2 with
      | .wait, _, _ => (.wait, s)
      | .err, _, _ => (.halt 1 (queueWindow d.src 0x040) false i i, s)
      | .ok, .wait, _ => (.wait, s)
      | .ok, .ok, .wait => (.wait, s)
      | .ok, r, r2 =>
        let p := s.popItem d.src (chk.headD .ok)
        let l := match p.1 with
          | some (x, b) => bytesOfNat 64 (popRecord x b).toNat
          | none => List.replicate 64 0
        match r, r2 with
        | .ok, .ok => State.shPops k d (i + 64) chk.tail n ((p.2.shWrite k dst (l.take 32)).shWrite k dst2 (l.drop 32))
        | .ok, _ => (.halt 2 dst2 true i i, p.2.shWrite k dst (l.take 32))
        | _, _ => (.halt 2 dst true i i, p.2)

/-- QDST: each 64-byte source record is one PUSH from class SHUTTLE. -/
def State.shPushes (old : State) (k : Nat) (d : ShDesc) (i : Nat) : Nat → State → ShEnd × State
  | 0, s => (.done, s)
  | n + 1, s =>
    if d.len ≤ i then (.done, s)
    else
      let src := sideAddr d.src d.sfix i
      match s.shReach k src, s.shReach k (sideAddr d.src d.sfix (i + 32)), s.shQueue k d.dst true with
      | .wait, _, _ => (.wait, s)
      | .err, _, _ => (.halt 1 src false i i, s)
      | .ok, .wait, _ => (.wait, s)
      | .ok, .err, _ => (.halt 1 (sideAddr d.src d.sfix (i + 32)) false i (i + 32), s)
      | .ok, .ok, .wait => (.wait, s)
      | .ok, .ok, .err => (.halt 2 (queueWindow d.dst 0) true i (i + 64), s)
      | .ok, .ok, .ok =>
        let a := s.shSource old k d i
        let b := a.2.shSource old k d (i + 32)
        let rec_ : Rec64 := BitVec.ofNat 512 (natOfBytes (a.1 ++ b.1))
        State.shPushes old k d (i + 64) n (b.2.pushAt d.dst pcShuttle (itemOf rec_) (recCont rec_) (b.2.mirror 16))

/-- A descriptor lies in a hank of the channel's hoop or in HBM (R386). -/
def descPlace (k a : Nat) : Bool :=
  decide (a < 0x0017FC000000) ||
    (decide (0x010000000000 ≤ a) && decide (a < 0x010010000000) && decide ((a - 0x010000000000) / 0x400000 / 4 = k / 8))

/-- Fetch the descriptor at a: none where the channel may not read it. -/
def State.shFetch (s : State) (k a : Nat) : Option ShDesc :=
  if descPlace k a && s.shReach k a ≠ .err then some (shDesc (s.bytes a 32)) else none

/-- A read error at byte i: what the channel had read and not yet written, at most its buffer of 2 KiB, is not written in order
(R391, R394); how much is a free choice v (DESIGN CHOICE, log entry 76). read: the bytes read; run n: the descriptor's first n
units from DONEB on. -/
def shReadHalt (old : State) (k : Nat) (d : ShDesc) (doneb unit addr i read : Nat) (v : DWord) (run : Nat → ShEnd × State) : ShEnd × State :=
  let n := (i - doneb) / unit
  let lag := v.toNat % (min (2048 / unit) n + 1)
  let s := (run (n - lag)).2
  let b := i - unit * lag
  (.halt 1 addr false b read, if d.qdst || lag = 0 then s else State.shTail s old k d b (v >>> 6) (min lag 58))

/-- Run the current descriptor from byte DONEB. chk: what it reads uncorrectable; pops: what the check bits of the cells it
pops say. -/
def State.shRun (s : State) (k : Nat) (chk : ShCheck) (pops : List CellCheck) : ShEnd × Option ShDesc × State :=
  let h := s.shuttle k
  match s.shFetch k h.desc with
  | none => (.halt 3 h.desc false h.doneb h.doneb, none, s)
  | some d =>
    if s.shReach k h.desc = .wait then (.wait, none, s)
    else if chk = .fetch then (.halt 3 h.desc false h.doneb h.doneb, none, s)
    else if d.malformed then (.halt 4 h.desc false h.doneb h.doneb, some d, s)
    else
      let f := s.fresh
      let run (n : Nat) : ShEnd × State :=
        if d.qsrc then State.shPops k d h.doneb pops n s
        else if d.qdst then State.shPushes s k d h.doneb n s
        else State.shCopy s k d f.1 h.doneb n f.2
      let unit := if d.qdst then 64 else 32
      let halt (addr i read : Nat) : ShEnd × Option ShDesc × State :=
        let r := shReadHalt s k d h.doneb unit addr i read f.1 run
        (r.1, some d, r.2)
      match chk with
      | .data a =>
        if d.qsrc || a.toNat < h.doneb || d.len ≤ a.toNat then (.wait, some d, s)
        else
          let i := a.toNat / unit * unit
          let r := run ((i - h.doneb) / unit)
          (match r.1 with
            | .done => halt (sideAddr d.src d.sfix (a.toNat / 32 * 32)) i (a.toNat / 32 * 32 + 32)
            | .halt 1 addr _ j n => halt addr j n
            | e => (e, some d, r.2))
      | _ =>
        let r := run (d.len / 32)
        match r.1 with
        | .halt 1 addr _ j n => if d.qsrc then (r.1, some d, r.2) else halt addr j n
        | e => (e, some d, r.2)

/-! ## Lists (R388 to R390, R392) -/

/-- x starts before y (R389): the earlier deadline, then the earlier ready time, then the lower context index; background
lists last, in order of readiness. -/
def listBefore (x y : ShList) : Bool :=
  match x.dl, y.dl with
  | some a, some b =>
    decide (a < b) || (a = b && (decide (x.ready < y.ready) || (x.ready = y.ready && decide (x.ctx.getD 0 < y.ctx.getD 0))))
  | some _, none => true
  | none, some _ => false
  | none, none => decide (x.order < y.order)

def Shuttle.best (h : Shuttle) : Option ShList :=
  h.ready.foldl (fun b x => match b with
    | none => some x
    | some y => if listBefore x y then some x else some y) none

/-- The table has room for an armed list, or for a ready background list. -/
def Shuttle.room (h : Shuttle) (bg : Bool) : Bool :=
  let nd := h.armed.length + (h.ready.filter fun l => l.dl.isSome).length
  let nb := (h.ready.filter fun l => l.dl.isNone).length
  decide (nd + nb < 528) && (bg || decide (nd < 512))

/-- The context is a stream of spindle k (R388). -/
def State.shCtxOk (s : State) (k c : Nat) : Bool :=
  decide (c < 262144 - s.prickCount) && ctxState (s.entry c) ≠ stFree && ctxSpindle (s.entry c) = k

/-- A write of SH_ARM with operation op (0 ARM, 1 BACKGROUND, 2 DISARM; 3 is reserved). -/
def State.shArm (s : State) (k op v : Nat) : State :=
  let h := s.shuttle k
  let a := fld v 0 43 * 32
  let c := fld v 43 18
  match op with
  | 0 =>
    if !s.shCtxOk k c then s.setShuttle k { h with armref := true }
    else if h.armed.any (fun e => e.1 = c) || h.room false then s.setShuttle k { h with armed := tabIns h.armed c a }
    else s.setShuttle k { h with full := true }
  | 1 =>
    if h.room true then
      s.setShuttle k { h with
        ready := h.ready ++ [{ ctx := none, seq := 0, dl := none, ready := s.clock.u, order := h.order, addr := a }]
        order := h.order + 1 }
    else s.setShuttle k { h with full := true }
  | 2 =>
    if !s.shCtxOk k c then s.setShuttle k { h with armref := true }
    else s.setShuttle k { h with armed := tabDel h.armed c }
  | _ => s

/-- An idle channel starts the first ready list; a device in FAULT starts none (17 R504). -/
def State.shStart (s : State) (k : Nat) : State :=
  let h := s.shuttle k
  match h.st, h.best with
  | .idle, some l =>
    if s.node = .fault then s
    else
      let rest := h.ready.erase l
      s.setShuttle k { h with st := .running, cur := some l, ready := rest, desc := l.addr, doneb := 0, cause := 0 }
  | _, _ => s

/-- A running background list yields to a list with a deadline, on a partition in M1, M2, M4 or M5 (R389). -/
def State.shYields (s : State) (k : Nat) (h : Shuttle) : Bool :=
  s.flushForced k && (match h.cur with | some l => l.dl.isNone | none => false) && h.ready.any fun l => l.dl.isSome

/-- What follows a complete descriptor d (R392, R393). -/
def State.shNext (s : State) (k : Nat) (d : ShDesc) : State :=
  let h := s.shuttle k
  let s := if d.irq then s.l1EventAt k 3 else s
  let h := { h with
    irqs := if d.irq then sat32 (h.irqs + 1) else h.irqs
    lists := if d.last then sat32 (h.lists + 1) else h.lists
    next := d.next, last := d.last, doneb := 0 }
  let stopping := h.stop || s.node = .fault
  if d.last then
    s.setShuttle k { h with
      cur := none, stop := false, st := if stopping then .stopped else .idle, desc := if stopping then 0 else h.desc }
  else if stopping then s.setShuttle k { h with stop := false, st := .stopped, desc := d.next }
  else if s.shYields k h then
    let l := (h.cur.map fun l => { l with addr := d.next, started := true }).toList
    s.setShuttle k { h with cur := none, st := .idle, ready := h.ready ++ l }
  else s.setShuttle k { h with desc := d.next }

/-- The HBM units that n bytes of a side from byte i on touch; a fixed source is read once, at the descriptor's start. -/
def sideUnits (a : Nat) (fix queue write : Bool) (i n : Nat) : List Nat :=
  if queue || n = 0 || !isHbm a then []
  else if !fix then unitsOf (a + i) n
  else ((List.range (if write then (n + 255) / 256 else b2n (decide (i < 256)))).map fun _ => unitsOf a 256).flatten

/-- The reserved slots that a channel uses for the descriptor d at desc, read from byte i up to byte r and written up to byte e,
are its list's (02 R95, 05 R193). -/
def State.shSlots (s : State) (k : Nat) (desc : Nat) (d : Option ShDesc) (i r e : Nat) : State :=
  match (s.shuttle k).cur with
  | none => s
  | some l =>
    let own := if isHbm desc then unitsOf desc 32 else []
    let moved := match d with
      | some d => sideUnits d.src d.sfix d.qsrc false i (r - i) ++ sideUnits d.dst d.dfix d.qdst true i (e - i)
      | none => []
    match l.ctx with
    | some c => s.countSlots k c (some l.seq) (s.slotsFor k (own ++ moved))
    | none => s

/-- The corrected words of a descriptor and of its source from byte i up to byte r count where they stand (05 R177, R189). -/
def State.shCorrected (s : State) (desc : Nat) (d : ShDesc) (chk : MoveCheck) (i r : Nat) : State :=
  let s := if chk.fetch then s.memCe desc else s
  if d.qsrc then s
  else chk.corrected.foldl (fun s o =>
    if i ≤ o.toNat && o.toNat < r then s.memCe (sideAddr d.src d.sfix o.toNat) else s) s

/-- DESCRIPTOR_COMPLETE: the running descriptor moves its bytes; one that cannot does nothing here (SHUTTLE_HALT). chk: what the
check bits said. -/
def State.shComplete (s : State) (k : Nat) (chk : MoveCheck) : State :=
  let h := s.shuttle k
  if h.st ≠ .running then s
  else match s.shRun k .ok chk.pops with
    | (.done, some d, s') => ((s'.shCorrected h.desc d chk h.doneb d.len).shSlots k h.desc (some d) h.doneb d.len d.len).shNext k d
    | _ => s

/-- SHUTTLE_HALT (R394): the channel waits for software. -/
def State.shHalt (s : State) (k : Nat) (chk : HaltCheck) : State :=
  let served := (s.shFetch k (s.shuttle k).desc).isSome
  if (s.shuttle k).st ≠ .running then s
  else match s.shRun k chk.stop chk.move.pops with
    | (.halt cause a dir n read, d, s') =>
      let h := s'.shuttle k
      let s' := if served then s'.shSlots k h.desc (if cause < 3 then d else none) h.doneb read n else s'
      let s' := match d with
        | some d => s'.shCorrected h.desc d chk.move h.doneb read
        | none => s'
      let s' := if (chk.stop = .fetch && cause = 3 && served || chk.stop ≠ .ok && cause = 1) && (isHbm a || isScratch a)
        then s'.memUe a else s'
      let s' := s'.setShuttle k { h with
        st := .halted, cause := BitVec.ofNat 3 cause, faddr := a, dir := dir, doneb := n, stop := false
        next := (d.map fun x => x.next).getD h.next, last := (d.map fun x => x.last).getD h.last }
      (s'.l1EventAt k 3).l2Event (64 + k / 8)
    | _ => s

/-- STOP (R393): at the next descriptor boundary, or at once on an idle channel. -/
def State.shStop (s : State) (k : Nat) : State :=
  let h := s.shuttle k
  match h.st with
  | .running => s.setShuttle k { h with stop := true }
  | .idle => s.setShuttle k { h with st := .stopped, desc := 0 }
  | _ => s

def ShState.waits : ShState → Bool
  | .stopped => true
  | .halted => true
  | _ => false

/-- RESUME (R395); a device in FAULT has stopped its channels (17 R504). -/
def State.shResume (s : State) (k : Nat) : State :=
  let h := s.shuttle k
  if !h.st.waits || s.node = .fault then s
  else s.setShuttle k { h with st := if h.cur.isSome then .running else .idle, cause := 0 }

/-- SKIP (R395): go on at NEXT, or end the list after LAST. A stopped channel, and one that halted at the fetch, reads the
descriptor it skips (DEDUCED, log entry 75); chk: what the check bits of that read say. A device in FAULT skips none (17 R504). -/
def State.shSkip (s : State) (k : Nat) (chk : DataCheck) : State :=
  let h := s.shuttle k
  let go (s : State) (next : Nat) (last : Bool) : State :=
    if last || h.cur.isNone then s.setShuttle k { h with cur := none, st := .idle, cause := 0, doneb := 0 }
    else s.setShuttle k { h with st := .running, desc := next, cause := 0, doneb := 0 }
  let halt (s : State) : State :=
    let s := s.setShuttle k { h with st := .halted, cause := 3, faddr := h.desc, dir := false }
    (s.l1EventAt k 3).l2Event (64 + k / 8)
  let read : State :=
    if s.shReach k h.desc = .wait then s
    else match s.shFetch k h.desc with
      | some d =>
        let s := (s.shSlots k h.desc none 0 0 0).memCheck h.desc chk
        if chk = .uncorrectable then halt s else go s d.next d.last
      | none => halt s
  if s.node = .fault then s
  else match h.st with
    | .halted => if h.cause = 3 && h.cur.isSome then read else go s h.next h.last
    | .stopped => if h.cur.isNone then go s 0 true else read
    | _ => s

/-- ABANDON (R395). -/
def State.shAbandon (s : State) (k : Nat) : State :=
  let h := s.shuttle k
  if !h.st.waits then s else s.setShuttle k { h with cur := none, st := .idle, cause := 0, doneb := 0 }

/-! ## The commands -/

/-- The logical spindle of a channel. -/
def chanOf (h : HoopId) (ch : SegId) : Nat := 8 * h.toNat + ch.toNat

def execArm (h : HoopId) (ch : SegId) (v : DWord) (s : State) : Host.Outcome State Fault Refusal :=
  .next (s.shArm (chanOf h ch) 0 v.toNat)

def execBackground (h : HoopId) (ch : SegId) (v : DWord) (s : State) : Host.Outcome State Fault Refusal :=
  .next (s.shArm (chanOf h ch) 1 v.toNat)

def execDisarm (h : HoopId) (ch : SegId) (v : DWord) (s : State) : Host.Outcome State Fault Refusal :=
  .next (s.shArm (chanOf h ch) 2 v.toNat)

def execListStart (h : HoopId) (ch : SegId) (s : State) : Host.Outcome State Fault Refusal := .next (s.shStart (chanOf h ch))

def execDescriptorComplete (h : HoopId) (ch : Checked SegId MoveCheck) (s : State) : Host.Outcome State Fault Refusal :=
  .next (s.shComplete (chanOf h ch.val) ch.chk)

def execShuttleHalt (h : HoopId) (ch : SegId) (chk : HaltCheck) (s : State) : Host.Outcome State Fault Refusal :=
  .next (s.shHalt (chanOf h ch) chk)

def execShuttleStop (h : HoopId) (ch : SegId) (s : State) : Host.Outcome State Fault Refusal := .next (s.shStop (chanOf h ch))

def execShuttleResume (h : HoopId) (ch : SegId) (s : State) : Host.Outcome State Fault Refusal :=
  .next (s.shResume (chanOf h ch))

def execShuttleSkip (h : HoopId) (ch : Checked SegId DataCheck) (s : State) : Host.Outcome State Fault Refusal :=
  .next (s.shSkip (chanOf h ch.val) ch.chk)

def execShuttleAbandon (h : HoopId) (ch : SegId) (s : State) : Host.Outcome State Fault Refusal :=
  .next (s.shAbandon (chanOf h ch))

end Sys2Proof.Machine
end

