-- ==== Sys2Proof/Machine/Node.lean ====
section
/-! DEFINITION. The node as a whole: node states (16 R462, 07 R264), supply and temperature (17 R496 to R500, 02 R91), resets of
the device, of a partition and of a position (17 R486 to R494), standby (R492), halted positions (R495), watchdogs (R502),
fatal errors and their record (R504 to R507) and live tests (R508, R510). -/

namespace Sys2Proof.Machine
open Sys2Proof

/-! ## Node states (16 Table 16-3) -/

/-- A change of node state is a management event (12 Table 12-12). -/
def State.setNode (s : State) (n : Node) : State := ({ s with node := n }).msixEvent 16 0

/-- Entry into OPERATIONAL: from PREOP every partition starts the transition that its MODE_REQ asks for (07 R264); the
templates are submitted (16 R479). -/
def State.toOperational (s : State) : State :=
  let fresh := s.node = .preop
  let s := s.setNode .operational
  let s := if fresh then (List.range 16).foldl State.requestStored s else s
  s.submitTemplates fun _ => true

/-- Every stream is force-closed and every partition moves to M0 (07 R264). -/
def State.quiesce (s : State) : State :=
  let s := s.liveCtxs.foldl (fun s e => s.forceCloseStream e.1 false) s
  (List.range 16).foldl State.forceM0 s

/-- Entry into PREOP: what R478 could not restore is reported, and AUTOSTART goes on to OPERATIONAL. -/
def State.toPreop (s : State) : State :=
  let s := s.setNode .preop
  let n := s.mgmt.notRestored
  let s := if n = 0 then s else { s with mgmt := { s.mgmt with notRestored := 0 } }.emergency 0x0060 n
  if s.dget 0x1100 4 = 1 then s.toOperational else s

/-! ## Supply (17 R496, R497, 02 R91) -/

def Skein.mark (x : Skein) (b : BitVec 16) : Skein := { x with status := x.status ||| b }

/-- Every skein that is released and has not ended takes status bits b. -/
def Disp.mark (d : Disp) (b : BitVec 16) : Disp :=
  { d with
    running := d.running.map fun x => x.mark b
    ready := d.ready.map fun x => x.mark b
    saved := d.saved.map fun p => (p.1, p.2.mark b)
    events := d.events.map fun v => { v with status := v.status ||| b } }

def State.markAll (s : State) (b : BitVec 16) : State :=
  let s := { s with disps := s.disps.map fun (e : Nat × Disp) => (e.1, e.2.mark b) }
  { s with qe := { s.qe with queues := s.qe.queues.map fun (e : Nat × Queue) =>
      (e.1, { e.2 with parked := e.2.parked.map fun (p : Parked) => { p with status := p.status ||| b } }) } }

/-- ALERT_N is low: a supply warning or thermal protection, and during reset (18 R519). -/
def State.alertLow (s : State) : Bool := s.rst.warn ≠ 0 || s.rst.prot || s.inReset

/-- TDO is driven (18 R515). -/
def Rst.tdoDriven (r : Rst) : Bool := r.tap = .shiftDr || r.tap = .shiftIr

/-- FAULT_N is low: in node state FAULT, and during reset (18 R519). -/
def State.faultLow (s : State) : Bool := s.node = .fault || s.inReset

/-- VDD_IO lies below its reset level, taken as the minimum below which the fail-safe inputs read low (DESIGN CHOICE, log entry
158). -/
def State.ioLow (s : State) : Bool := s.rst.low.getLsbD 6

def State.setLow (s : State) (i : Nat) (b : Bool) : State :=
  { s with rst := { s.rst with low := if b then s.rst.low ||| BitVec.ofNat 8 (2 ^ i) else s.rst.low &&& ~~~(BitVec.ofNat 8 (2 ^ i)) } }

def State.setBall (s : State) (i : Nat) (b : Bool) : State :=
  { s with rst := { s.rst with balls := if b then s.rst.balls ||| BitVec.ofNat 3 (2 ^ i) else s.rst.balls &&& ~~~(BitVec.ofNat 3 (2 ^ i)) } }

/-- A warning begins on a rail 0 to 6; in a power-on reset or a brown-out hold the rail is noted (18 R518). -/
def State.supplyWarn (s : State) (i : Nat) : State :=
  let r := s.rst
  if 6 < i || r.warn.getLsbD i then s
  else if s.inReset then (if r.pwrLow || r.held then s.setLow i true else s)
  else
    let b : Byte := BitVec.ofNat 8 (2 ^ i)
    let s := { s with rst := { r with warn := r.warn ||| b, event := r.event ||| b } }
    let s := (s.markAll sSupply).dset 0x5000 3 (sat32 (s.dget 0x5000 3 + 1))
    (((s.l2Event 1).logErr 0x4001 i).msixEvent 16 1).emergency 0x0001 i

def execSupplyWarning (rail : SegId) (s : State) : Host.Outcome State Fault Refusal := .next (s.supplyWarn rail.toNat)

/-- The lowest rail that was told to be low. -/
def Rst.lowRail (r : Rst) : Nat := ((List.range 8).find? fun i => r.low.getLsbD i).getD 0

/-- PWROK is read high: with a rail still low the device holds reset as in a brown-out hold, and RST_CAUSE tells (18 R518). -/
def State.pwrRise (s : State) : State :=
  let r := { s.rst with pwrLow := false }
  { s with rst := if r.low = 0 then r else { r with cause := 2, rail := BitVec.ofNat 4 r.lowRail, held := true } }

/-- PWROK, RESET_N and PERST_N as they are read. -/
def State.readPins (s : State) : State :=
  { s with rst := { s.rst with
    pwrLow := s.rst.balls.getLsbD 0 || s.ioLow
    resetLow := s.rst.balls.getLsbD 1 || s.ioLow
    perstLow := s.rst.balls.getLsbD 2 || s.ioLow } }

/-- A rail is back at its level: VDD_IO lets the fail-safe inputs be read. -/
def State.railUp (s : State) (i : Nat) : State :=
  let t := s.setLow i false
  if i ≠ 6 then t
  else if t.rst.pwrLow && !t.rst.balls.getLsbD 0 then t.readPins.pwrRise else t.readPins

/-- The warning of a rail ends. After the last one the spindles that are not idle, and no others, go on marking their skeins until
they are. A rail that was low in a reset is so no longer. -/
def State.supplyRecover (s : State) (i : Nat) : State :=
  let s := if s.rst.low.getLsbD i then s.railUp i else s
  let r := s.rst
  if !r.warn.getLsbD i || s.inReset then s
  else
    let w := r.warn &&& ~~~(BitVec.ofNat 8 (2 ^ i))
    let s := { s with rst := { r with warn := w, holdoff := if w = 0 then some (s.now + 1000000) else none } }
    let s := if w = 0 then { s with disps := s.disps.map fun (e : Nat × Disp) => (e.1, { e.2 with supply := !e.2.idle }) } else s
    (((s.l2Event 1).logErr 0x4002 i).msixEvent 16 1).emergency 0x0002 i

def execSupplyRecovery (rail : SegId) (s : State) : Host.Outcome State Fault Refusal := .next (s.supplyRecover rail.toNat)

def execHoldoffEnd (s : State) : Host.Outcome State Fault Refusal :=
  .next (match s.rst.holdoff with
    | some t => if t ≤ s.now then { s with rst := { s.rst with holdoff := none } } else s
    | none => s)

/-! ## Fatal errors (R501 to R505) -/

/-- No core runs: the CORE clock has stopped, or the firmware cannot run (R505). -/
def State.stopCores (s : State) (spindles : Bool) : State :=
  (List.range 132).foldl (fun s k => if k < 128 && !spindles then s else s.modCore k fun c => { c with run := .off }) s

/-- A fatal error after which no distaff core can run. -/
def State.hwFatal (s : State) (code detail : Nat) (spindles : Bool) : State := (s.stopCores spindles).fatal code detail

/-- PLL p has lost lock or has not locked (R501, R502): the disciplined PLL's LOCKED clears (14 Table 14-1). -/
def State.pllFault (s : State) (p : Nat) : State :=
  let s := if p = 0 then { s with time := { s.time with locked := false } } else s
  if p ≤ 1 then s.hwFatal 0x3004 p true else s.fatal 0x3004 p

def State.pllLost (s : State) (p : Nat) : State := if 6 < p || s.inReset then s else s.pllFault p

def execPllLostLock (pll : SegId) (s : State) : Host.Outcome State Fault Refusal := .next (s.pllLost pll.toNat)

def execDieToDieLinkFailure (link : Byte) (s : State) : Host.Outcome State Fault Refusal :=
  .next (if s.inReset then s else s.fatal 0x3007 link.toNat)

def execHbmStackFailure (k : StackId) (s : State) : Host.Outcome State Fault Refusal :=
  .next (if s.inReset then s else s.fatal 0x3005 k.toNat)

/-- The disciplined PLL falls back to REFCLK (R501): no error and no phase step. -/
def execRecoveredClockFailure (s : State) : Host.Outcome State Fault Refusal :=
  .next (if s.time.fref then { s with time := { s.time with fref := false } } else s)

/-! ## Temperature (R499, R500) -/

/-- Grade AE: the ordering code in the factory value of 0x1000.03 is 1 (0: AC). -/
def gradeAE : Bool := Config.factory 0x1000 3 = 1

/-- Engage, release and trip levels in 0.125 °C units (Table 17-7). -/
def engageLevel : Int := if gradeAE then 880 else 800
def releaseLevel : Int := if gradeAE then 840 else 760
def tripLevel : Int := if gradeAE then 1000 else 920

def State.temp (s : State) (i : Nat) : Int := tabGet 0 s.rst.temps i

/-- The hottest sensor; ties to the lowest number. -/
def State.hottestSensor (s : State) : Nat :=
  (List.range 18).foldl (fun b i => if s.temp b < s.temp i then i else b) 0

/-- New readings of sensors 0 on. -/
def State.setTemps (s : State) (l : List (BitVec 16)) : State :=
  { s with rst := { s.rst with
      temps := (List.range (min l.length 18)).foldl (fun t i => tabSet 0 t i (l.getD i 0).toInt) s.rst.temps } }

/-- The SerDes clocks stop: the Ethernet and PCIe links are down (R500; DEDUCED, log entry 99). -/
def State.serdesStop (s : State) : State :=
  let s := (List.range 32).foldl State.portDown s
  (((s.dset 0x2200 5 0).dset 0x2200 6 0).dset 0x2200 7 0).l2Event 24

/-- TEMPERATURE_SAMPLE: protection engages on a sensor at or above its level in two consecutive samples, and is released when
every sensor has been at or below for 100 µs; a trip applies first (R512). -/
def State.sampleTemps (s : State) (l : List (BitVec 16)) : State :=
  let old := s
  let s := s.setTemps l
  let all := List.range 18
  if s.inReset || s.rst.tripped then s
  else match all.find? fun i => tripLevel ≤ s.temp i with
    | some i => ((({ s with rst := { s.rst with tripped := true } } : State).hbmSleep true).serdesStop).hwFatal 0x3006 i true
    | none =>
      let cool := all.all fun i => s.temp i ≤ releaseLevel
      let since := if cool then some (s.rst.cool.getD s.clock.cycles) else none
      let s := { s with rst := { s.rst with cool := since } }
      if s.rst.prot then
        match since with
        | some t =>
          if t + 100000 ≤ s.clock.cycles then
            let s := { s with rst := { s.rst with prot := false }, disps := s.disps.map fun (e : Nat × Disp) =>
              (e.1, { e.2 with thermal := !e.2.idle }) }
            let i := s.hottestSensor
            (((s.l2Event 2).logErr 0x4004 i).msixEvent 16 2).emergency 0x0011 i
          else s
        | none => s
      else match all.find? fun i => engageLevel ≤ old.temp i && engageLevel ≤ s.temp i with
        | some i =>
          let s := { s with rst := { s.rst with prot := true, protEv := true } }
          let s := (s.markAll sThermal).dset 0x5000 4 (sat32 (s.dget 0x5000 4 + 1))
          (((s.l2Event 2).logErr 0x4003 i).msixEvent 16 2).emergency 0x0010 i
        | none => s

def execTemperatureSample (temps : List (BitVec 16)) (s : State) : Host.Outcome State Fault Refusal :=
  .next (s.sampleTemps temps)

/-! ## Watchdogs (R502) -/

def State.kickDog (s : State) (c : Nat) : State := { s with rst := { s.rst with kicks := tabSet 0 s.rst.kicks c s.clock.cycles } }

def execKick (k : BitVec 2) (s : State) : Host.Outcome State Fault Refusal := .next (s.kickDog k.toNat)

/-- A distaff core has not kicked for 10 ms: EXPIRED is set and the core halts. -/
def State.dogExpires (s : State) (c : Nat) : State :=
  let r := (s.core (128 + c)).run
  if r = .halted || r = .off || s.clock.cycles < tabGet 0 s.rst.kicks c + 10000000 then s
  else
    let s := { s with rst := { s.rst with expired := s.rst.expired ||| BitVec.ofNat 4 (2 ^ c) } }
    s.haltCore (128 + c)

def execWatchdogExpiry (k : BitVec 2) (s : State) : Host.Outcome State Fault Refusal := .next (s.dogExpires k.toNat)

/-! ## Device resets (R486 to R489, Table 17-2) -/

def linkKeys : List Nat := [dkey 0x2200 5, dkey 0x2200 6, dkey 0x2200 7]

/-- The RWS fields of a region, a hank and an HBM controller, which a warm reset keeps (00 Table 0-5, 17 Table 17-2); the stack
enters self-refresh (R489). -/
def Region.keepRws (x : Region) : Region := { ce := x.ce, pe := x.pe, ue := x.ue }
def Hank.keepRws (x : Hank) : Hank :=
  { ce := x.ce, ueCount := x.ueCount, ueRow := x.ueRow, ueBgroup := x.ueBgroup, ueBank := x.ueBank }
def Stack.keepRws (x : Stack) : Stack := { retired := x.retired, asleep := true }

/-- A device-wide reset: cause 1 power-on, 2 brown-out, 3 RESET_N, 4 device soft reset. What Table 17-2 marks K, and the pins,
stay; everything else takes its reset value. The stored values apply again in start-up. -/
def State.deviceReset (s : State) (cause rail : Nat) : State :=
  let aon := cause ≤ 2
  let soft := cause = 4
  let r := s.rst
  let m := s.mgmt
  let keepAddr := soft && m.src = 1
  { State.reset with
    pending := s.pending
    sent := s.sent
    clock := { cycles := s.clock.cycles, free := s.clock.free }
    time := if aon then { ppsIn := s.time.ppsIn } else s.time
    qe := { fci := s.qe.fci, serial := s.qe.serial, regions := if aon then [] else tabMap {} Region.keepRws s.qe.regions }
    hanks := if aon then [] else tabMap {} Hank.keepRws s.hanks
    hbms := if aon then [] else (List.range 4).foldl (fun t k => tabSet {} t k ((s.stack k).keepRws)) []
    mem := if aon then [] else s.mem.filter fun e => e.1 < 0x001800000000
    dict := if soft then s.dict.filter fun e => linkKeys.contains e.1 else []
    cxlCache := if soft then s.cxlCache else []
    hdms := if soft then s.hdms else []
    aer := if soft then s.aer else []
    mgmt := { chainIn := m.chainIn, chainRaw := m.chainRaw, chainAt := m.chainAt, strap := m.strap, addr := if keepAddr then m.addr else 0, src := if keepAddr then 1 else 0,
              bankA := m.bankA, bankB := m.bankB }
    rst :=
      { cause := BitVec.ofNat 4 cause
        rail := if cause = 2 then BitVec.ofNat 4 rail else if aon then 0 else r.rail
        temps := r.temps
        resetLow := r.resetLow
        perstLow := r.perstLow
        pwrLow := r.pwrLow
        balls := r.balls
        low := r.low
        tap := r.tap
        held := r.held
        tripped := r.tripped
        event := if aon then 0 else r.event
        protEv := !aon && r.protEv
        expired := if aon then 0 else r.expired
        kicks := r.kicks
        first := if aon then none else r.first
        firstV := !aon && r.firstV
        log := if aon then [] else r.log
        next := if aon then 0 else r.next
        wrap := !aon && r.wrap
        posFail := if aon then [] else r.posFail
        granSeal := if aon then [] else r.granSeal } }

/-- POWER_ON_RESET: the level of PWROK (VDD_AON at or above 0.660 V with it); low holds the device in reset. -/
def State.powerOnReset (s : State) (level : Bool) : State :=
  if level then
    let t := s.setBall 0 false
    if !s.rst.pwrLow || s.ioLow then t else t.pwrRise
  else
    let t := (if s.rst.pwrLow then s else s.deviceReset 1 0).setBall 0 true
    { t with rst := { t.rst with pwrLow := true, held := false } }

def execPowerOnReset (level : Bool) (s : State) : Host.Outcome State Fault Refusal := .next (s.powerOnReset level)

/-- BROWN_OUT: a rail 0 to 6 below its reset level (R498), which for VDD_IO leaves the fail-safe inputs reading low (18 R518);
VDD_AON, rail 7, is a power-on reset (R496). While PWROK is low the rail is noted and nothing else happens. -/
def State.brownOut (s : State) (rail : Nat) : State :=
  if 7 < rail then s
  else if s.rst.pwrLow then s.setLow rail true
  else if rail = 7 then s.powerOnReset false
  else
    let s := (s.deviceReset 2 rail).setLow rail true
    let s := { s with rst := { s.rst with held := true } }
    if rail = 6 then s.readPins else s

def execBrownOut (rail : PartId) (s : State) : Host.Outcome State Fault Refusal := .next (s.brownOut rail.toNat)

/-- RESET_N, filtered: low resets the device, unless PWROK is low (18 R518). -/
def State.resetPin (s : State) (level : Bool) : State :=
  let t := if level || s.rst.resetLow || s.rst.pwrLow then s else s.deviceReset 3 0
  let t := t.setBall 1 (!level)
  { t with rst := { t.rst with resetLow := !level || t.ioLow } }

def execResetN (level : Bool) (s : State) : Host.Outcome State Fault Refusal := .next (s.resetPin level)

/-- A device load of host memory whose answer is on its way ends with an error response (R491). -/
def Core.failHost (c : Core) : Core :=
  match c.cpu.outLoad with
  | some l => if hostWindow ≤ l.addr.toNat && l.addr.toNat < 2 ^ 48 then
      { c with cpu := { c.cpu with outLoad := some { l with resp := none } } } else c
  | none => c

/-- PERST_N low resets the endpoint: every function, the rings, CXL and the link; reads in progress fail. -/
def State.perstPin (s : State) (level : Bool) : State :=
  let s := s.setBall 2 (!level)
  if level then { s with rst := { s.rst with perstLow := s.ioLow } }
  else if s.rst.perstLow then s
  else
    let waits := s.hostReads
    let s := { s with
      rst := { s.rst with perstLow := true }
      rings := []
      msix := []
      msixFns := []
      mailboxes := []
      hdms := []
      aer := []
      ats := []
      cxlCache := []
      hostReads := []
      cores := s.cores.map fun (e : Nat × Core) => (e.1, e.2.failHost) }
    let s := waits.foldl (fun s h => s.setRing h.part 3 (s.ring h.part 3).lose) s
    (((s.dset 0x2200 5 0).dset 0x2200 6 0).dset 0x2200 7 0).l2Event 24

def execPerstN (level : Bool) (s : State) : Host.Outcome State Fault Refusal := .next (s.perstPin level)

/-! ## Positions (R494) -/

/-- A write to RST, OFF or BIST takes effect: the sequencer is idle, and the logical spindle, if any, holds no stream. -/
def State.posWritable (s : State) (w : Nat) : Bool :=
  s.mcIdle w && (match s.logOf w with
    | some k => s.liveCtxs.all fun e => ctxSpindle e.2 ≠ k
    | none => true)

def State.spindleReset (s : State) (w : Nat) : State :=
  if s.posWritable w && ((s.pos w).st = 0 || (s.pos w).st = 4) then s.posReset w false else s

def execSpindleReset (w : PosId) (s : State) : Host.Outcome State Fault Refusal := .next (s.spindleReset w.val)

def State.positionPower (s : State) (w : Nat) (off : Bool) : State :=
  if !s.posWritable w then s
  else if off && (s.pos w).st ≠ 2 then s.posOff w
  else if !off && (s.pos w).st = 2 then s.posPower w
  else s

def execPositionPower (w : PosId) (off : Bool) (s : State) : Host.Outcome State Fault Refusal :=
  .next (s.positionPower w.val off)

def State.positionBist (s : State) (w : Nat) : State :=
  if s.posWritable w && (s.logOf w).isNone && (s.pos w).st = 0 then s.startPosTest w else s

def execPositionBist (w : PosId) (s : State) : Host.Outcome State Fault Refusal := .next (s.positionBist w.val)

/-- What falls due at a position: the end of a reset, which a self-test may follow, or of a power-on. -/
def State.posSettle (s : State) (w : Nat) : State :=
  let p := s.pos w
  match p.due with
  | none => s
  | some t =>
    if s.clock.cycles < t then s
    else if p.st = 3 then s.posOn w
    else if p.test then s.startPosTest w
    else ((s.resetCore w .idle).setPos w {}).applyPatch w

/-- What falls due at the positions in this TIME cycle. -/
def State.posTick (s : State) : State :=
  (s.rst.pos.filter fun (e : Nat × Pos) => e.2.due.isSome).foldl (fun s (e : Nat × Pos) => s.posSettle e.1) s

/-! ## Halted positions (R495) -/

/-- OUT_OF_SERVICE of spindle k: its controller has halted; when it has not, a patch RAM parity error was found at its position
(11 R350), which aborts the skein with FAULT, is logged and raises PATCH_PARITY. The spare takes over, or the spindle's
streams are force-closed and its position is unmapped, reset and tested. -/
def State.outOfService (s : State) (k : Nat) : State :=
  let w := s.posOf k
  if s.oos k || s.node = .fault || s.distaffRunning = 0 || (s.pos w).st ≠ 0 then s
  else
    let s := if (s.core k).run = .halted then s else (s.logErr 0x2007 w).l2Event (640 + w)
    let s := s.abortRunning k .fault
    match s.spareFor k with
    | some w => s.replaceBy k w
    | none => s.takeOut k

def execOutOfService (k : Spindle) (s : State) : Host.Outcome State Fault Refusal := .next (s.outOfService k.toNat)

/-! ## Partition reset (R493) -/

/-- Steps 1 and 2: a waiting transition is dropped and every stream is force-closed. -/
def State.resetBegin (s : State) (p : Nat) : State :=
  let x := s.part p
  let x := if x.phase.toNat < 2 then { x with pend := false, phase := 0, forced := false } else x
  let s := s.setPart p { x with resetting := true, resetWork := true }
  (s.liveCtxs.filter fun e => ctxPart e.2 = p).foldl (fun s e => s.forceCloseStream e.1 false) s

/-- Step 3: the queues of region p are flushed and deleted, and the prickings of p become unused. -/
def State.resetQueues (s : State) (p : Nat) : State :=
  let s := s.qe.queues.foldl (fun s e =>
    if e.2.owner.toNat = p && e.2.state ≠ .free then
      let s := s.emptyQueue e.1
      s.setQueue e.1 { (s.queue e.1).freed with busy := false }
    else s) s
  s.store.foldl (fun s e =>
    if 262144 - s.prickCount ≤ e.1 && prValid e.2 && prPart e.2 = p then s.setEntry e.1 (rset e.2 0 56 1 0) else s) s

/-- Steps 4 and 5: scrubs, local memories, the timer block, the registers of p's positions, the VF and the volatile entries
of p (Table 17-2). -/
def State.resetBlocks (s : State) (p : Nat) : State :=
  let s := (hanksOf s p).foldl State.scrubHank s
  let s := (s.partPositions p).foldl (fun s w =>
    let s := ((s.zeroLocal w).resetLocal w).applyPatch w
    s.setPos w { s.pos w with result := 0 }) s
  let s := { s with timers := tabSet {} s.timers p {}, selects := tabSet 0 s.selects p 0 }
  let s := ((s.vfReset p).dset (0x3000 + p) 17 0).dset (0x3000 + p) 18 0
  s.setPart p { s.part p with traceLost := 0, replay := 0, replayLeft := 0, replayRec := none }

/-- The reset goes on once no transition is in PHASE 2 to 4 and every stream of p is FREE: steps 3 to 6, and step 7 when p is
in M0 already. -/
def State.resetGo (s : State) (p : Nat) : State :=
  let x := s.part p
  if !x.resetWork || 2 ≤ x.phase.toNat || s.liveCtxs.any fun e => ctxPart e.2 = p then s
  else
    let s := (s.resetQueues p).resetBlocks p
    let s := s.setPart p { s.part p with resetWork := false }
    (s.forceM0 p).resetDone p

/-- A write of p to RESET_PARTITION: an abort code, or 0 and the state. -/
def State.resetPartRule (s : State) (p : Nat) : Nat × State :=
  if (s.part p).resetting then (abBusy, s)
  else (0, ((s.resetBegin p).resetGo p).transitionStart p)

/-- TRANSITION_START: a partition reset that waited goes on, and the actions of a transition start. -/
def execTransitionStart (p : PartId) (s : State) : Host.Outcome State Fault Refusal :=
  .next ((s.resetGo p.toNat).transitionStart p.toNat)

/-! ## Standby (R492) -/

/-- What standby turns off: positions, hanks (the owned ones to retention), ports and stacks; CORE runs at step 3. -/
def State.standbyUnits (s : State) (on : List Nat) : State :=
  let s := on.foldl State.posOff s
  let s := (List.range 64).foldl (fun s n => s.writeHankPwr n (if (s.hank n).owner = 0x1F then 2 else 1)) s
  let s := ((List.range 32).foldl State.portDown s).hbmSleep true
  { s with clock := { s.clock with step := 3, nextStep := none } }

/-- Distaff cores 1 to 3 stop. -/
def State.standbyCores (s : State) : State := [129, 130, 131].foldl (fun s k => s.modCore k fun c => { c with run := .off }) s

/-- A write of 1 in PREOP: the device goes to standby, distaff cores 1 to 3 with it. With core 0 halted none runs then: fatal
0x3003 (R502). -/
def State.standbyEnter (s : State) : State :=
  let on := (List.range 144).filter fun w => (s.pos w).st ≠ 2
  let s := { s with rst := { s.rst with
    standby := true, sbPos := on, sbHank := (List.range 64).map fun n => (n, (s.hank n).req), sbStep := s.clock.step } }
  let s := ((s.standbyUnits on).standbyCores).dset 0x6000 5 1
  if s.distaffRunning = 0 then s.fatal 0x3003 0 else s

/-- The exit: full PREOP as before. -/
def State.standbyLeave (s : State) : State :=
  if !s.rst.standby then s
  else
    let s := s.rst.sbPos.foldl State.posOn (s.hbmSleep false)
    let s := s.rst.sbHank.foldl (fun s e => s.writeHankPwr e.1 e.2) s
    let s := [1, 2, 3].foldl (fun s c => (s.setCore (128 + c) (Core.init (128 + c))).kickDog c) s
    let s := { s with clock := { s.clock with step := s.rst.sbStep } }
    ({ s with rst := { s.rst with standby := false, sbPos := [], sbHank := [], sbStep := 0 } }).dset 0x6000 5 0

/-- A write of STANDBY: an abort code, or 0 and the state. -/
def State.standbyRule (s : State) (v : Nat) : Nat × State :=
  if v = 1 then
    if s.node ≠ .preop then (abRefused, s) else if s.rst.standby then (0, s) else (0, s.standbyEnter)
  else (0, s.standbyLeave)

/-! ## NMT commands (16 R462, R471) -/

/-- Command c of Table 16-7 as NMT_LOCAL takes it, RESET_COMM and RESET_NODE apart: the state after, or none when Table 16-3
has no row. Any of them ends standby. -/
def State.nmtMove (s : State) (c : Nat) : Option State :=
  let t := s.standbyLeave
  match c, s.node with
  | 0x01, .preop => some t.toOperational
  | 0x01, .stopped => some t.toOperational
  | 0x02, .preop => some (t.setNode .stopped)
  | 0x02, .operational => some (t.setNode .stopped)
  | 0x80, .operational => some t.quiesce.toPreop
  | 0x80, .stopped => some t.quiesce.toPreop
  | 0x83, .unaddressed => some ({ t with mgmt := { t.mgmt with chainOut := true } }).toPreop
  | _, _ => none

/-- RESET_COMM: alive states, stored responses, block sessions and the transmit queue but for EMERGENCY frames; the PHY and
PLCA restart. The session stays, and no confirm matches it any more (R485). -/
def State.resetComm (s : State) : State :=
  let m := s.mgmt
  { s with mgmt := { m with
      aliveRx := [], last := [], blocks := [], txq := m.txq.filter fun x => x.kind = 0, plca := false, respDue := []
      answered := false } }

/-! ## The fatal record (R505 to R507) -/

def recordBase : Nat := 0x0017FE000000

/-- n bytes from a take values the manual does not give. -/
def State.scramble (s : State) (a n : Nat) : State :=
  let f := s.clock.free
  let s := s.poke a ((List.range n).map fun i => (Config.freeWord (f + i)).setWidth 8)
  { s with clock := { s.clock with free := f + n } }

/-- Sections of a record (Table 17-11). -/
def recordSections : Nat := 314

/-- The body of HEAD. -/
def State.headBody (s : State) (gen : Nat) (complete : Bool) : List Byte :=
  let e : ErrEnt := s.rst.first.getD ⟨0, 0, 0, true⟩
  bytesOfNat 2 1 ++ bytesOfNat 2 (b2n complete) ++ bytesOfNat 4 gen ++ bytesOfNat 8 e.tb.toNat ++ bytesOfNat 4 e.code.toNat ++
    bytesOfNat 4 e.detail.toNat ++ bytesOfNat 4 (nodeCode s.node) ++ bytesOfNat 4 (Config.factory 0x1000 7) ++
    bytesOfNat 8 (Config.factory 0x1000 5) ++ bytesOfNat 4 recordSections ++ bytesOfNat 4 (b2n gradeAE)

/-- A section: its header and its body. -/
def section_ (tag : List Byte) (inst : Nat) (body : List Byte) : List Byte :=
  tag ++ bytesOfNat 4 body.length ++ bytesOfNat 4 inst ++ bytesOfNat 4 (crcOf 0 body) ++ body

/-- The tags of Table 17-11. -/
def headTag : List Byte := [0x48, 0x45, 0x41, 0x44]
def tagErrs : List Byte := [0x45, 0x52, 0x52, 0x53]
def tagTime : List Byte := [0x54, 0x49, 0x4D, 0x45]
def tagPart : List Byte := [0x50, 0x41, 0x52, 0x54]
def tagCtrl : List Byte := [0x43, 0x54, 0x52, 0x4C]
def tagSeqr : List Byte := [0x53, 0x45, 0x51, 0x52]
def tagDist : List Byte := [0x44, 0x49, 0x53, 0x54]
def tagQeng : List Byte := [0x51, 0x45, 0x4E, 0x47]
def tagCtxs : List Byte := [0x43, 0x54, 0x58, 0x53]
def endTag : List Byte := [0x45, 0x4E, 0x44, 0x20]
def recordTags : List (List Byte) :=
  [headTag, tagErrs, tagTime, tagPart, tagCtrl, tagSeqr, tagDist, tagQeng, tagCtxs, endTag]

/-- The record's size (17 R506). -/
def recordSize : Nat := 19 * 2 ^ 20

/-- HEAD of the record in memory is valid. -/
def State.headValid (s : State) : Bool :=
  let h := s.bytes recordBase 16
  let b := s.bytes (recordBase + 16) 48
  h.take 4 = headTag && beyond h 4 4 = 48 && beyond h 12 4 = crcOf 0 b

/-- A field of the record's HEAD body. -/
def State.headField (s : State) (a n : Nat) : Nat := natOfBytes (s.bytes (recordBase + 16 + a) n)

/-- Write the summary entries 0x5F00.01 to .07. -/
def State.setSummary (s : State) (src gen t code detail good bad : Nat) : State :=
  ((((((s.dset 0x5F00 1 src).dset 0x5F00 2 gen).dset 0x5F00 3 t).dset 0x5F00 4 code).dset 0x5F00 5 detail).dset 0x5F00 6
    good).dset 0x5F00 7 bad

/-- The sections of the record from address a on whose CRC holds, and those whose CRC fails (Table 17-13), at most n of them: up to
END, or to what is no section (DEDUCED, log entry 92). -/
def State.sectionsFrom (s : State) : Nat → Nat → Nat × Nat
  | 0, _ => (0, 0)
  | n + 1, a =>
    let h := s.bytes a 16
    let len := beyond h 4 4
    if !recordTags.contains (h.take 4) || recordBase + recordSize < a + 16 + len then (0, 0)
    else
      let ok := decide (beyond h 12 4 = crcOf 0 (s.bytes (a + 16) len))
      let r := if h.take 4 = endTag then (0, 0) else s.sectionsFrom n (a + 16 + len)
      (r.1 + b2n ok, r.2 + b2n !ok)

/-- The summary at start-up (R507): from the record, or from the RWS registers. -/
def State.fillSummary (s : State) : State :=
  let e : ErrEnt := s.rst.first.getD ⟨0, 0, 0, true⟩
  let valid := s.headValid
  if s.rst.firstV && !(valid && s.headField 8 8 = e.tb.toNat) then
    s.setSummary 3 0 e.tb.toNat e.code.toNat e.detail.toNat 0 0
  else if valid then
    let n := s.sectionsFrom recordSections recordBase
    s.setSummary (if bitOf (s.headField 2 1) 0 then 1 else 2) (s.headField 4 4) (s.headField 8 8) (s.headField 16 2)
      (s.headField 20 4) n.1 n.2
  else s

/-- RECORD_CLEAR zeroes HEAD and the summary. -/
def State.clearRecord (s : State) : State := (s.zeroRange recordBase 64).setSummary 0 0 0 0 0 0 0

/-- ERR_CLEAR clears ERR_FIRST.V, NEXT and WRAP. -/
def State.clearErrors (s : State) : State := { s with rst := { s.rst with firstV := false, next := 0, wrap := false } }

/-! ## Live tests (R508, R510, Table 17-10) -/

/-- A logical port of physical port m is named by a stream that is not FREE, by QEGRESS or by PTP_PORTS. -/
def State.portNamed (s : State) (m : Nat) : Bool :=
  (s.liveCtxs.any fun e => ctxTimed e.2 && ctxEport e.2 / 4 = m) ||
    s.qe.queues.any (fun e => match e.2.egress with | some n => n / 4 = m | none => false) ||
    fld (s.dget 0x2140 4) (4 * m) 4 ≠ 0

/-- The distaff cores other than c run. -/
def State.othersRun (s : State) (c : Nat) : Bool :=
  (List.range 4).all fun i => i = c || ((s.core (128 + i)).run ≠ .halted && (s.core (128 + i)).run ≠ .off)

/-- The condition of Table 17-10; in M6 the position of an idle spindle of the partition may be tested too (07 R261). -/
def State.testAllowed (s : State) (unit inst : Nat) : Bool :=
  !s.testing unit inst && match unit with
  | 0 => decide (inst < 144) && (s.pos inst).st = 0 && (match s.logOf inst with
    | none => true
    | some k => s.modeOf k = some 6 && s.spindleEmpty k && s.mcIdle inst)
  | 1 =>
    let h := s.hank inst
    decide (inst < 64) && h.owner = 0x1F && !h.faben && !h.pendBit
  | 2 => decide (inst < 16) && (s.part inst).mode = 6
  | 3 => decide (inst < 128)
  | 4 => decide (inst < 8) && !s.portNamed inst && s.rst.tests.all fun t => t.1 ≠ 4
  | 5 => decide (inst < 4) && s.othersRun inst && s.rst.tests.all fun t => t.1 ≠ 5
  | _ => false

/-- Start a test. -/
def State.startTest (s : State) (unit inst : Nat) : State :=
  if unit = 0 then s.startPosTest inst
  else
    let s := { s with rst := { s.rst with tests := s.rst.tests ++ [(unit, inst)] } }
    if unit = 5 then s.modCore (128 + inst) fun c => { c with run := .off } else s

/-- A write of 1 to TEST_GO: an abort code, or 0 and the state. -/
def State.testRule (s : State) (v : Nat) : Nat × State :=
  let u := s.dget 0x6001 1
  let i := s.dget 0x6001 2
  if v = 0 then (0, s)
  else if s.rst.testGo.isSome then (abBusy, s)
  else if !s.testAllowed u i then (abRefused, s.dset 0x6001 4 5)
  else
    let s := (s.startTest u i).dset 0x6001 4 2
    (0, ({ s with rst := { s.rst with testGo := some (u, i) } }).dset 0x6001 5 0)

/-- A position's test ends. A pass makes it the hoop's spare, or returns its spindle to service; a fail marks it in POS_FAIL and
powers it off, and its spindle has no position. -/
def State.posTestEnd (s : State) (w : Nat) (pass : Bool) : State :=
  if pass then
    let s := s.scramble (posWindow w) 0x20000
    let s := s.setPos w { result := 1 }
    match (List.range 128).find? fun k => s.oos k && s.posOf k = w with
    | some k => s.returnTo k w
    | none =>
      match s.logOf w with
      | some k => s.returnTo k w
      | none => s
  else
    let s := match s.logOf w with
      | some k => (s.resetCore w .off).setOos k true
      | none => s
    let s := ((s.setPosFail w).posOff w).logErr 0x2008 w
    s.setPos w { s.pos w with result := 2 }

/-- Units of pseudo-channel pc in granules that nobody owns, or that belong to a partition in M6 (07 R261), take open values. -/
def State.scramblePc (s : State) (pc : Nat) : State :=
  (List.range 1535).foldl (fun s g =>
    let o := s.granOwner g
    if o = 31 || (o < 16 && (s.part o).mode = 6) then
      (List.range 2048).foldl (fun s j => s.scramble (g * 2 ^ 26 + j * 2 ^ 15 + pc * 256) 256) s
    else s) s

/-- The unit's side of the end of a test. A distaff core that fails stays stopped. -/
def State.unitTestEnd (s : State) (unit inst : Nat) (pass : Bool) : State :=
  match unit with
  | 0 => s.posTestEnd inst pass
  | 1 => s.zeroHank inst
  | 3 => s.scramblePc inst
  | 5 => if pass then (s.setCore (128 + inst) (Core.init (128 + inst))).kickDog inst else s
  | _ => s

/-- In a round of R510 the next distaff core follows. -/
def State.roundNext (s : State) (c : Nat) : State :=
  if !s.rst.round then s
  else if c < 4 && s.testAllowed 5 c then s.startTest 5 c
  else { s with rst := { s.rst with round := false } }

def State.liveTestEnd (s : State) (unit inst : Nat) (pass : Bool) (detail : Nat) : State :=
  if !s.testing unit inst then s
  else
    let asked := s.rst.testGo = some (unit, inst)
    let s := { s with rst := { s.rst with tests := s.rst.tests.erase (unit, inst) } }
    let s := s.unitTestEnd unit inst pass
    let s := if asked then
        (({ s with rst := { s.rst with testGo := none } }).dset 0x6001 4 (if pass then 3 else 4)).dset 0x6001 5
          (if pass then 0 else detail)
      else s
    if unit = 5 then s.roundNext (inst + 1) else s

def execLiveTestEnd (unit : Byte) (inst : Half) (pass : Bool) (detail : Word) (s : State) : Host.Outcome State Fault Refusal :=
  .next (s.liveTestEnd unit.toNat inst.toNat pass detail.toNat)

/-- LIVE_TEST_ROUND: with LIVE_TEST_ENABLE, the tests of the spares, of the hanks owned by none and of the distaff cores, one
after another, begin; suspended while fewer than three cores run (01 R35). Positions are rotated by SPARE_REPLACEMENT. -/
def State.testRound (s : State) : State :=
  if s.dget 0x6000 1 = 0 || s.distaffRunning < 3 || s.node = .init || s.node = .fault || s.rst.standby then s
  else
    let go (s : State) (l : List (Nat × Nat)) : State :=
      l.foldl (fun s t => if s.testAllowed t.1 t.2 then s.startTest t.1 t.2 else s) s
    let s := go s ((List.range 16).filterMap fun h => (s.spareOf h).map fun w => (0, w))
    let s := go s ((List.range 64).map fun n => (1, n))
    ({ s with rst := { s.rst with round := true } }).roundNext 0

def execLiveTestRound (s : State) : Host.Outcome State Fault Refusal := .next s.testRound

end Sys2Proof.Machine
end

