-- ==== Sys2Proof/Machine/Dict.lean ====
section
/-! DEFINITION. Object dictionary accesses (16 R473 to R478, R483; 15 R442, R443; 00 R23 to R25): what each entry reads, the
checks of R475 in their order, the rule of the chapter that owns the entry, and the store of values. -/

namespace Sys2Proof.Machine
open Sys2Proof

/-! ## Values (Table 16-9a and the entry tables) -/

/-- The selection of a path (15 R443). -/
def pathKey : Path → Nat
  | .vf p => p.toNat
  | .pf => 16
  | .zmp => 17

def State.selected (s : State) (path : Path) : Nat := tabGet 0 s.selects (pathKey path)

/-- Two's complement of n bits. -/
def twos (n : Nat) (x : Int) : Nat := (BitVec.ofInt n x).toNat

/-- Entries 0x5010.01 to .09 for the stream in context c (02 Table 2-9). -/
def State.statNum (s : State) (c sub : Nat) : Nat :=
  let a := s.aux c
  let e := s.entry c
  if 3 ≤ sub && s.isContext c && ctxState e ≠ stFree && s.sealedOwner (ctxPart e) then 0
  else match sub with
  | 1 => c
  | 2 => if s.isContext c then ctxState e else 0
  | 3 => a.cyclesLast
  | 4 => a.cyclesMax
  | 5 => twos 32 a.slackLast
  | 6 => twos 32 a.slackMin
  | 7 => a.hbmLast
  | 8 => twos 16 a.tempLast
  | 9 => a.skeins
  | _ => 0

/-- The records from the bytes of a bank; none where they are cut short. -/
def bankRecs : Nat → List Byte → Option (List (Nat × List Byte))
  | _, [] => some []
  | 0, _ => none
  | f + 1, l =>
    let n := beyond l 4 2
    if l.length < 6 + n then none
    else (bankRecs f (l.drop (6 + n))).map fun r => (beyond l 0 2 * 256 + beyond l 2 1, (l.drop 6).take n) :: r

/-- The bytes of a bank (R476): the generation, the records, and the CRC-32C over them (DESIGN CHOICE, log entry 157: the CRC stands
after the last record). -/
def Bank.image (b : Bank) : List Byte :=
  let l := bytesOfNat 4 b.gen.toNat ++ b.recs.flatMap fun e =>
    bytesOfNat 2 (e.1 / 256) ++ bytesOfNat 1 (e.1 % 256) ++ [Config.typeCode e.1] ++ bytesOfNat 2 e.2.length ++ e.2
  l ++ bytesOfNat 4 (crcOf 0 l)

/-- What a bank's bytes say; none where its CRC fails. -/
def Bank.ofBytes (l : List Byte) : Option Bank :=
  let n := l.length - 4
  let body := l.take n
  if l.length < 8 || beyond l n 4 ≠ crcOf 0 body then none
  else (bankRecs n (body.drop 4)).map fun r => ⟨BitVec.ofNat 32 (beyond l 0 4), r⟩

/-- The valid bank with the higher generation (R478); true: it is bank B. -/
def Mgmt.inUse (m : Mgmt) : Option (Bool × Bank) :=
  match Bank.ofBytes m.bankA, Bank.ofBytes m.bankB with
  | some a, some b => if a.gen.toNat < b.gen.toNat then some (true, b) else some (false, a)
  | some a, none => some (false, a)
  | none, b => b.map fun x => (true, x)

def Mgmt.bank (m : Mgmt) : Option Bank := m.inUse.map Prod.snd

/-- The bytes of bank A, or of B. -/
def Mgmt.setBank (m : Mgmt) (b : Bool) (l : List Byte) : Mgmt := if b then { m with bankB := l } else { m with bankA := l }

/-- DEVICE MAC address (R455). -/
def macAddress : Nat := 2 * 2 ^ 40 + Config.factory 0x1000 5 % 2 ^ 40

/-- Entries of hoop h, 0x5020 + h (17 Table 17-13). -/
def State.mapNum (s : State) (h sub : Nat) : Nat :=
  let sum (n : Nat) (f : Nat → Nat) : Nat := (List.range n).foldl (fun m i => m + f i) 0
  match sub with
  | 1 => sum 8 fun k => tabGet k s.posMap (8 * h + k) * 16 ^ k
  | 2 => match s.spareOf h with
    | some w => w % 9
    | none => 255
  | 3 => sum 9 fun p => b2n (s.posFailed (9 * h + p)) * 2 ^ p
  | _ => sum 8 fun k => b2n (s.oos (8 * h + k)) * 2 ^ k

/-- What the servo of a node with a PTP role measures (15 R452): no rule states the values. -/
def State.servoNum (s : State) (sub : Nat) : Option Nat :=
  if s.dget 0x2140 1 = 0 then none else some (Config.servo sub s.clock.cycles)

/-- Entries that read what another part of the state holds: the value, or none for one that is state of its own. -/
def State.computed (s : State) (c idx sub : Nat) : Option Nat :=
  let m := s.mgmt
  match idx, sub with
  | 0x1000, 4 => some (Config.factory 0x1000 4)
  | 0x1000, 5 => some (Config.factory 0x1000 5)
  | 0x1000, 6 => some macAddress
  | 0x1000, 7 => some (Config.factory 0x1000 7)
  | 0x1000, 8 => some (Config.factory 0x1000 8)
  | 0x1100, 1 => some m.addr.toNat
  | 0x1100, 2 => some m.src.toNat
  | 0x1100, 3 => some (nodeCode s.node)
  | 0x1100, 8 => some (b2n m.plca)
  | 0x1200, 3 => some (match m.bank with | some b => b.gen.toNat | none => 0)
  | 0x2140, 10 => s.servoNum 10
  | 0x2140, 11 => s.servoNum 11
  | 0x2140, 12 => (s.servoNum 12).map fun v => v % 4
  | 0x5000, 1 => some s.rst.cause.toNat
  | 0x5000, 2 => some (b2n (s.node = .fault))
  | 0x5000, 5 => some (twos 16 (s.temp s.hottestSensor))
  | 0x7000, 1 => some s.now
  | 0x7000, 2 => some s.time.freq.toNat
  | 0x7000, 12 => some (b2n s.time.locked)
  | 0x32FF, 3 => some ((List.range 4).foldl (fun x k => x + b2n (s.stack k).hot * 2 ^ k) 0)
  | _, _ =>
    if idx = 0x5001 then some (twos 16 (s.temp (sub - 1)))
    else if idx = 0x5010 then some (s.statNum c sub)
    else if idx = 0x5011 then (let u := s.utilAt (sub - 1); some (ceilDiv (u.1 * 1000) u.2))
    else if idx = 0x32FF && 4 ≤ sub then some (twos 16 (sextNat 8 (s.stack (sub - 4)).temp.toNat))
    else if 0x5020 ≤ idx && idx ≤ 0x502F then some (s.mapNum (idx - 0x5020) sub)
    else if 0x3000 ≤ idx && idx ≤ 0x300F then
      let x := s.part (idx - 0x3000)
      match sub with
      | 2 => some x.mode.toNat
      | 3 => some (x.phase.toNat + x.errcode.toNat * 16)
      | 14 => some x.traceLost
      | 15 => some ((s.granRange (idx - 0x3000)).filter s.granZeroing).length
      | 19 => some x.replay.toNat
      | _ => none
    else if 0x3100 ≤ idx && idx ≤ 0x313F then
      let h := s.hank (idx - 0x3100)
      match sub with
      | 4 => some (powerCode h.power)
      | 5 => some h.ce
      | 6 => some h.ueCount
      | _ => none
    else if 0x4E00 ≤ idx && idx ≤ 0x4E7F && sub = 2 then some (s.card (idx - 0x4E00)).status
    else none

/-- The 16 bytes of a log entry (Table 17-9's registers). -/
def errBytes (e : Option ErrEnt) (v : Bool) : List Byte :=
  match e with
  | none => bytesOfNat 16 0
  | some e => bytesOfNat 16 (e.code.toNat + b2n v * 2 ^ 16 + e.detail.toNat * 2 ^ 32 + e.tb.toNat * 2 ^ 64)

def utf8 (t : String) : List Byte := t.toList.map fun c => BitVec.ofNat 8 c.toNat

/-- A record lies in memory. -/
def State.recordHeld (s : State) : Bool := s.dget 0x5F00 1 = 1 || s.dget 0x5F00 1 = 2

/-- The values without a fixed size. -/
def State.domBytes (s : State) (idx sub : Nat) : List Byte :=
  match idx, sub with
  | 0x1000, 1 => utf8 "Dalquin Silicon"
  | 0x1000, 2 => utf8 "TV-7840"
  | 0x1000, 3 => utf8 (if gradeAE then "TV-7840-AE" else "TV-7840-AC")
  | 0x1100, 13 => s.mgmt.emcy.flatMap Emcy.payload
  | 0x5F80, 2 => if s.recordHeld then s.bytes (recordBase + 4096 * s.dget 0x5F80 1) 4096 else []
  | _, _ =>
    if idx = 0x5100 then
      if sub = 33 then errBytes s.rst.first s.rst.firstV else (let e := tabGet none s.rst.log (sub - 1); errBytes e (e.any ErrEnt.v))
    else s.dom idx sub

/-- The value of an entry that exists; c is the stream that the path selects. -/
def State.dictBytes (s : State) (c : Nat) (r : DRow) (idx sub : Nat) : List Byte :=
  match r.ty.size with
  | none => s.domBytes idx sub
  | some n => bytesOfNat n ((s.computed c idx sub).getD (s.dget idx sub))

/-! ## Who may access what (R475, 15 R443) -/

/-- Context c holds a stream of partition p. -/
def State.ownContext (s : State) (p c : Nat) : Bool :=
  s.isContext c && ctxState (s.entry c) ≠ stFree && ctxPart (s.entry c) = p

/-- Context c holds no stream of another partition. -/
def State.notOthers (s : State) (p c : Nat) : Bool :=
  !s.isContext c || ctxState (s.entry c) = stFree || ctxPart (s.entry c) = p

def isCard (idx : Nat) : Bool := 0x4E00 ≤ idx && idx ≤ 0x4E7F

def State.mayRead (s : State) (path : Path) (idx sub : Nat) : Bool :=
  match path with
  | .vf p =>
    idx = 0x1000 || idx = 0x3000 + p.toNat || (isCard idx && s.partOf (idx - 0x4E00) = some p.toNat) ||
      (idx = 0x5010 && (sub ≤ 1 || s.notOthers p.toNat (s.selected path)))
  | _ => true

def State.mayWrite (s : State) (path : Path) (idx sub v : Nat) : Bool :=
  match path with
  | .vf p =>
    (idx = 0x3000 + p.toNat && sub = 1) || (isCard idx && sub = 1 && s.partOf (idx - 0x4E00) = some p.toNat) ||
      (idx = 0x5010 && sub = 1 && s.ownContext p.toNat v) ||
      (idx = 0x5010 && sub = 10 && s.notOthers p.toNat (s.selected path)) || (idx = 0x6000 && sub = 4 && v = p.toNat)
  | _ => true

/-- NMT_LOCAL carrying RESET_NODE or RESET_COMM (R469). -/
def isNmtReset (idx sub v : Nat) : Bool := idx = 0x1100 && sub = 10 && (v = 0x81 || v = 0x82)

/-! ## Ranges (R474) -/

def rowValue (r : DRow) (l : List Byte) : Int :=
  if r.ty.signed then sextNat (8 * l.length) (natOfBytes l) else Int.ofNat (natOfBytes l)

/-- "SAVE", "LOAD", and the keys of Table 17-13. -/
def keySave : Nat := 0x45564153
def keyLoad : Nat := 0x44414F4C
def keyErrClear : Nat := 0x52524543
def keyRecordClear : Nat := 0x46524C43

/-- Ranges that are not an interval. -/
def setRange (idx sub v : Nat) : Bool :=
  if 0x7200 ≤ idx && idx ≤ 0x723F && sub = 3 then v ≤ 7 || v = 255
  else if idx = 0x7000 && sub = 11 then v ≤ 31 || v = 255
  else if idx = 0x1100 && (sub = 9 || sub = 11) then v = 0 || decide (10 ≤ v)
  else if idx = 0x1100 && sub = 10 then v = 1 || v = 2 || (decide (0x80 ≤ v) && decide (v ≤ 0x83))
  else if idx = 0x2200 && sub = 1 then v = 4 || v = 8 || v = 16
  else if 0x2110 ≤ idx && idx ≤ 0x212F && sub = 8 then v % 256 = 0
  else if idx = 0x1200 && sub = 1 then v = keySave
  else if idx = 0x1200 && sub = 2 then v = keyLoad
  else if idx = 0x5100 && sub = 34 then v = keyErrClear
  else if idx = 0x5F00 && sub = 8 then v = keyRecordClear
  else true

/-- Length and range of a value written: 0 or an abort code. -/
def valueCheck (r : DRow) (idx sub : Nat) (l : List Byte) : Nat :=
  match r.ty.size with
  | none =>
    if r.ty.maxSize < l.length then abLength
    else if idx = 0x2030 && l.length ≠ 0 && l.length < 112 then abLength
    else if (r.first = 0x4000 || r.first = 0x4800) && l.length ≠ 0 && l.length ≠ 64 then abLength
    else if r.first = 0x4000 && l.length = 64 && l.headD 0 ≠ 1 then abRange
    else 0
  | some n =>
    if l.length ≠ n then abLength
    else if rowValue r l < r.lo || r.hi < rowValue r l || !setRange idx sub (natOfBytes l) then abRange
    else 0

/-! ## Rules of the owning chapters -/

/-- 06 Table 6-8: WM_HIGH and WM_LOW against each other, WM_FCO_PIN against R229, WM_ENABLE; governor firmware applies an
accepted value to WM_CFG. -/
def State.wmRule (s : State) (g sub v : Nat) : Nat × State :=
  let i := 0x7200 + g
  let high := s.dget i 1
  let low := s.dget i 2
  let others := match s.wmPart g with
    | some p => (s.othersIn p).any fun o => o.1 ≠ g && s.fcoPinOf o.1 = v && ((s.part p).mode = 4 || (s.part o.2).mode = 4)
    | none => false
  if sub = 1 && !(if v = 0 then low = 0 && s.dget i 5 = 0 else decide (low < v)) then (abRange, s)
  else if sub = 2 && !(if high = 0 then v = 0 else decide (v < high)) then (abRange, s)
  else if sub = 3 && v ≤ 7 && others then (abRefused, s)
  else if sub = 5 && v = 1 && high = 0 then (abRefused, s)
  else
    let s := s.dset i sub v
    let x := s.wmGroup g
    let x := match sub with
      | 1 => { x with high := v }
      | 2 => { x with low := v }
      | 3 => { x with fcopin := BitVec.ofNat 3 v, fcoen := decide (v ≤ 7) }
      | 4 => { x with fcimask := BitVec.ofNat 8 v }
      | 5 => { x with en := v = 1 }
      | _ => { x with irqen := v = 1 }
    (0, (s.setWm g x).wmUpdate g)

/-- Logical ports in use under PORT_MODE value v of physical port m. -/
def portsOf (m v : Nat) : List Nat :=
  match v with
  | 0 => [4 * m]
  | 1 => [4 * m, 4 * m + 2]
  | 2 => [4 * m, 4 * m + 1, 4 * m + 2, 4 * m + 3]
  | _ => []

/-- A rule, a default rule, QEGRESS or PTP_PORTS names logical port n (R453). -/
def State.portHeld (s : State) (n : Nat) : Bool :=
  (s.ruleList.any fun e => e.2.port = n) || (tabGet none s.qe.defRule n).isSome ||
    s.qe.queues.any (fun e => e.2.egress = some n) || bitOf (s.dget 0x2140 4) n

def State.portModeRule (s : State) (m v : Nat) : Nat × State :=
  let keep := portsOf m v
  if (List.range 4).any fun i => !keep.contains (4 * m + i) && s.portHeld (4 * m + i) then (abRefused, s)
  else
    let s := if v = s.dget (0x2100 + m) 1 then s else (List.range 4).foldl (fun s i => s.portDown (4 * m + i)) s
    (0, s.dset (0x2100 + m) 1 v)

/-- The default rule of port n with one of its entries set to v (06 R230). -/
def State.defaultRule (s : State) (n sub v : Nat) : Option Rule :=
  let val (k : Nat) : Nat := if k = sub then v else s.dget (0x2110 + n) k
  if val 1 = 0x10000 then none
  else some
    { port := n, kind := 0xFF, etype := 0, vlan := 0, ecpriId := 0, queue := val 1, ringBase := val 8, slotLog2 := val 9,
      slots := val 10, n := 0, part := (s.queue (val 1)).owner.toNat }

def State.defaultRuleRule (s : State) (n sub v : Nat) : Nat × State :=
  let go (r : Option Rule) : Nat × State :=
    let s := s.dset (0x2110 + n) sub v
    (0, { s with qe := { s.qe with defRule := tabSet none s.qe.defRule n r } })
  match s.defaultRule n sub v with
  | none => go none
  | some r => if !s.ruleShape r || !s.ruleRing r || 32768 ≤ s.ruleList.length then (abRefused, s) else go (some r)

/-- Governor firmware applies the timebase entries to the timebase registers (14 R426). -/
def State.applyTime (s : State) (sub v : Nat) : State :=
  let t := s.time
  let t := match sub with
    | 3 => { t with slewRate := BitVec.ofNat 8 v }
    | 5 => { t with inen := v = 1 }
    | 6 => { t with inpol := v = 1 }
    | 7 => { t with outen := v = 1 }
    | 8 => { t with off := v }
    | 9 => { t with width := v }
    | 10 => { t with synce := BitVec.ofNat 2 v }
    | 11 => if v = 255 then { t with fref := false } else { t with fref := true, rport := BitVec.ofNat 5 v }
    | _ => t
  { s with time := t }

/-- NOTIFY_MAP values (R483): the entry exists, can be read, and is not longer than 1,400 bytes. -/
def notifyOk (v : Nat) : Bool :=
  let idx := v / 256
  let sub := v % 256
  v = 0 || (decide (v < 2 ^ 24) && decide (0 < dictTop idx) &&
    (sub = 0 || (match dictRow idx sub with
      | some r => r.acc ≠ .wo && decide (r.ty.maxSize ≤ 1400)
      | none => false)))

/-- The present value of the entry that NOTIFY_MAP slot j names. -/
def State.watched (s : State) (j : Nat) : List Byte :=
  let v := s.dget 0x1110 (j + 1)
  match dictRow (v / 256) (v % 256) with
  | some r => s.dictBytes (s.selected .zmp) r (v / 256) (v % 256)
  | none => []

/-- Slot j's value is the one that a change is measured against (R483). -/
def State.watch (s : State) (j : Nat) : State :=
  { s with mgmt := { s.mgmt with seen := tabSet [] s.mgmt.seen j (s.watched j) } }

/-- GO of request slot k (R480). -/
def State.goRule (s : State) (k v : Nat) : Nat × State :=
  let i := 0x4800 + k
  let l := s.dom i 2
  if v = 0 then (0, s)
  else if s.dget i 6 = 1 then (abBusy, s)
  else if l.isEmpty then (abRefused, s)
  else
    let r := s.anyReq (s.dget i 1) (BitVec.ofNat 512 (natOfBytes l))
    (0, (r.2.2.dset i 4 r.1).dset i 5 r.2.1)

/-- STAT_RESET: sub-indices 0x04, 0x06 and 0x09 of the selected stream clear (02 R96). -/
def State.statClear (s : State) (c : Nat) : State :=
  s.setAux c { s.aux c with cyclesMax := 0, slackMin := 0, skeins := 0, recorded := false }

/-- EMCY_ACK clears the held emergencies of its code (R472, R485). -/
def State.emcyAck (s : State) (code : Nat) : State :=
  { s with mgmt := { s.mgmt with emcy := s.mgmt.emcy.filter fun e => e.code ≠ code } }

/-- The rule of R351 on a patch image. -/
def State.patchRule (s : State) (l : List Byte) : Nat × State :=
  if l.isEmpty then (0, s.loadPatch [])
  else match patchStatus deviceStepping l with
    | some n => (abRefused, s.dset 0x2030 3 n)
    | none => (0, s.loadPatch l)

/-- NMT_LOCAL (R471, R462). A command ends standby even where Table 16-3 has no row for it (17 R492). -/
def State.nmtLocal (s : State) (c : Nat) : Nat × State :=
  if c = 0x81 then (0, s.deviceReset 4 0)
  else if c = 0x82 then (0, s.resetComm)
  else match s.nmtMove c with
    | some t => (0, t)
    | none => (abState, if c = 0x01 || c = 0x02 || c = 0x80 || c = 0x83 then s.standbyLeave else s)

/-! ## Storing values (R476, R477) -/

/-- The index ranges of the dictionary in ascending order. -/
def dictGroups : Tab Nat := dictRows.foldl (fun t r => tabIns t r.first r.last) []

/-- The STO entries in ascending index and sub-index order. -/
def stoKeys : List Nat :=
  dictGroups.flatMap fun e => (List.range (e.2 + 1 - e.1)).flatMap fun i =>
    (List.range (dictTop (e.1 + i))).filterMap fun j =>
      match dictRow (e.1 + i) (j + 1) with
      | some r => if r.sto then some (dkey (e.1 + i) (j + 1)) else none
      | none => none

/-- Every STO entry with its value. -/
def State.stoRecords (s : State) : List (Nat × List Byte) :=
  stoKeys.filterMap fun k => (dictRow (k / 256) (k % 256)).map fun r => (k, s.dictBytes 0 r (k / 256) (k % 256))

/-- No flash is there, or one of less than the 2 MiB that R476 asks for. -/
def State.noFlash (s : State) : Bool := s.dget 0x1200 5 < 2048

/-- STORE: the values as they stand go to the bank not in use, which is erased first. ok: the flash takes them and they read back.
The
operation runs until State.storeEnd (R477); one that meets another is refused with BUSY. -/
def State.storeValues (s : State) (ok : Bool) : Nat × State :=
  let m := s.mgmt
  let b := !(match m.inUse with | some x => x.1 | none => true)
  let gen := (match m.bank with | some x => x.gen | none => 0) + 1
  if m.storing.isSome then (abBusy, s)
  else if s.noFlash then
    let f := s.fresh
    (abFlash, f.2.emergency 0x0061 (f.1.toNat % 2 ^ 32))
  else (0, { s with mgmt := { m.setBank b [] with storing := some { bank := some (b, ⟨gen, s.stoRecords⟩), ok := ok } } })

/-- RESTORE_DEFAULTS erases both banks. -/
def State.eraseBanks (s : State) : Nat × State :=
  if s.mgmt.storing.isSome then (abBusy, s)
  else if s.noFlash then (abFlash, s)
  else (0, { s with mgmt := { s.mgmt with bankA := [], bankB := [], storing := some { bank := none, ok := true } } })

/-- A write that came to state t has begun a flash operation in s: its answer waits for the end. -/
def State.storeBegun (s t : State) : Bool := s.mgmt.storing.isNone && t.mgmt.storing.isSome

def State.storeFor (s : State) (a : StoreAnswer) : State :=
  { s with mgmt := { s.mgmt with storing := s.mgmt.storing.map fun x => { x with answer := some a } } }

/-! ## One write -/

/-- The rule of the owning chapter (the last check of R475) and the write itself. c: the stream that the path selects;
restore: made in INIT from the stored values; ok: how a STORE's flash operation ends. -/
def State.dictRule (s : State) (path : Path) (restore ok : Bool) (idx sub : Nat) (l : List Byte) : Nat × State :=
  let v := natOfBytes l
  let plain : Nat × State := (0, s.dset idx sub v)
  if idx = 0x1100 then
    if sub = 10 then s.nmtLocal v else if sub = 12 then (0, s.emcyAck v) else plain
  else if idx = 0x1110 then (if notifyOk v then (0, (s.dset idx sub v).watch (sub - 1)) else (abRange, s))
  else if idx = 0x1200 then (if sub = 1 then s.storeValues ok else s.eraseBanks)
  else if idx = 0x2010 then plain
  else if idx = 0x2020 then (0, if restore then { s.dset idx sub v with prickUnits := v } else s.dset idx sub v)
  else if idx = 0x2030 then s.patchRule l
  else if 0x2100 ≤ idx && idx ≤ 0x2107 then (if sub = 1 then s.portModeRule (idx - 0x2100) v else plain)
  else if 0x2110 ≤ idx && idx ≤ 0x212F then
    (if sub = 1 || 8 ≤ sub then s.defaultRuleRule (idx - 0x2110) sub v else plain)
  else if idx = 0x2140 then
    (if sub = 4 && (List.range 32).any fun n => bitOf v n && (s.portRate n).isNone then (abRefused, s)
      else if sub = 4 && (List.range 32).any fun n => bitOf v n && s.testing 4 (n / 4) then (abBusy, s)
      else plain)
  else if 0x3000 ≤ idx && idx ≤ 0x300F then
    let p := idx - 0x3000
    if sub = 1 then (if restore then plain else s.modeRule p v)
    else if sub ≤ 12 then s.partRule p sub v restore
    else if sub = 16 then s.replayRule p v
    else plain
  else if 0x3100 ≤ idx && idx ≤ 0x313F then
    let n := idx - 0x3100
    let r := s.hankRule n sub v
    if restore && r.1 = 0 then (0, ((r.2.handoverBoundary n).heldScrubStart n).scrubEnd n) else r
  else if 0x3200 ≤ idx && idx ≤ 0x32FE then s.recordRule (idx - 0x3200) sub v
  else if idx = 0x32FF then s.retireRule (sub = 2) v
  else if (0x4000 ≤ idx && idx ≤ 0x47FF) || (0x4800 ≤ idx && idx ≤ 0x480F) then
    if sub = 2 then (0, s.setDom idx 2 l)
    else if 0x4800 ≤ idx && sub = 3 then s.goRule (idx - 0x4800) v
    else plain
  else if isCard idx then s.cardRule (idx - 0x4E00) l
  else if idx = 0x5010 then
    if sub = 1 then (0, { s with selects := tabSet 0 s.selects (pathKey path) v })
    else (0, if v = 1 then s.statClear (s.selected path) else s)
  else if idx = 0x5100 then (0, s.clearErrors)
  else if idx = 0x5F00 then (0, s.clearRecord)
  else if idx = 0x6000 then
    if sub = 4 then s.resetPartRule v else if sub = 5 then s.standbyRule v else plain
  else if idx = 0x6001 then (if sub = 3 then s.testRule v else plain)
  else if idx = 0x7000 then (0, (s.dset idx sub v).applyTime sub v)
  else if 0x7200 ≤ idx && idx ≤ 0x723F then s.wmRule (idx - 0x7200) sub v
  else if idx = 0x7280 then (0, { s.dset idx sub v with qe := { s.qe with fcien := BitVec.ofNat 8 v } })
  else plain

/-- A write through a path, checked in the order of R475: the abort code, 0 for none, and the state after. -/
def State.dictWrite (s : State) (path : Path) (ok : Bool) (idx sub : Nat) (l : List Byte) : Nat × State :=
  let v := natOfBytes l
  if s.node = .fault && !(isNmtReset idx sub v && l.length = 1) then (abState, s)
  else if dictTop idx = 0 then (abNoEntry, s)
  else if dictTop idx < sub then (abNoSub, s)
  else match dictRow idx sub with
    | none => if !s.mayWrite path idx sub v then (abNoAccess, s) else if sub = 0 then (abReadOnly, s) else (abNoSub, s)
    | some r =>
      if !s.mayWrite path idx sub v then (abNoAccess, s)
      else if r.acc = .ro || r.acc = .const then (abReadOnly, s)
      else if r.acc = .rwp && s.node ≠ .preop then (abNotPreop, s)
      else
        let a := valueCheck r idx sub l
        if a ≠ 0 then (a, s) else s.dictRule path false ok idx sub l

/-- A read through a path: an abort code, or the value. -/
def State.dictRead (s : State) (path : Path) (idx sub : Nat) : Sum Nat (List Byte) :=
  if dictTop idx = 0 then .inl abNoEntry
  else if sub = 0 then (if s.mayRead path idx 0 then .inr [BitVec.ofNat 8 (dictTop idx)] else .inl abNoAccess)
  else match dictRow idx sub with
    | none => .inl abNoSub
    | some r =>
      if !s.mayRead path idx sub then .inl abNoAccess
      else if r.acc = .wo then .inl abWriteOnly
      else .inr (s.dictBytes (s.selected path) r idx sub)

/-! ## The restore in INIT (R478) -/

/-- One record of the bank in use: applied, or skipped and counted. -/
def State.restoreOne (s : State) (e : Nat × List Byte) : State :=
  let idx := e.1 / 256
  let sub := e.1 % 256
  let skip : State := s.dset 0x1200 4 (min (s.dget 0x1200 4 + 1) 0xFFFF)
  match dictRow idx sub with
  | none => skip
  | some r =>
    if !r.sto || valueCheck r idx sub e.2 ≠ 0 then skip
    else
      let x := s.dictRule .zmp true true idx sub e.2
      if x.1 = 0 then x.2 else (let t := x.2; t.dset 0x1200 4 (min (t.dget 0x1200 4 + 1) 0xFFFF))

/-- The stored values apply; the timebase registers take the entries' values. -/
def State.restoreStored (s : State) : State :=
  let s := match s.mgmt.bank with
    | some b => if s.noFlash then s else b.recs.foldl State.restoreOne s
    | none => s
  let why := if s.noFlash then 1 else if s.mgmt.bank.isNone then 2 else if s.dget 0x1200 4 ≠ 0 then 3 else 0
  let s := { s with mgmt := { s.mgmt with notRestored := why } }
  [3, 5, 6, 7, 8, 9, 10, 11].foldl (fun s k => s.applyTime k (s.dget 0x7000 k)) s

/-! ## The mailbox (15 R442, R443) -/

def State.mailbox (s : State) (f : Fn) : Mailbox := tabGet {} s.mailboxes (fnKey f)
def State.setMailbox (s : State) (f : Fn) (x : Mailbox) : State := { s with mailboxes := tabSet {} s.mailboxes (fnKey f) x }

def pathOf : Fn → Path
  | .pf => .pf
  | .vf p => .vf p

/-- Write bytes into the data window from offset 0. -/
def windowPut (t : Tab Byte) (l : List Byte) : Tab Byte :=
  (l.foldl (fun a b => (a.1 + 1, tabSet 0 a.2 a.1 b)) (0, t)).2

def Mailbox.bytes (x : Mailbox) (n : Nat) : List Byte := (List.range n).map fun i => tabGet 0 x.data i

/-- The operation ends: DONE, the abort code, and vector 4 of the PF. A mailbox that the operation itself has reset stays so. -/
def State.mailboxDone (s : State) (f : Fn) (abort : Nat) (data : Option (List Byte)) : State :=
  let x := s.mailbox f
  if !x.busy then s
  else
    let x := { x with busy := false, done := true, abort := BitVec.ofNat 32 abort }
    let x := match data with
      | some l => { x with statLen := BitVec.ofNat 14 l.length, data := windowPut x.data l }
      | none => x
    let s := s.setMailbox f x
    if f = .pf then s.msixEvent 16 4 else s

/-- Perform the operation that MB_CMD holds; the PF's is source MAILBOX (12 Table 12-9). With no distaff core running it
stays busy (17 R505). -/
def State.mailboxGo (s : State) (f : Fn) (ok : Bool) : State :=
  let x := s.mailbox f
  if x.busy || s.node = .init then s
  else
    let s := s.setMailbox f { x with busy := true }
    let s := if f = .pf then s.l2Event 160 else s
    if s.distaffRunning = 0 then s
    else if x.op then
      let r := s.dictWrite (pathOf f) ok x.index.toNat x.sub.toNat (x.bytes (min x.len.toNat 8192))
      if s.storeBegun r.2 then r.2.storeFor (.mailbox f) else r.2.mailboxDone f r.1 none
    else match s.dictRead (pathOf f) x.index.toNat x.sub.toNat with
      | .inl a => s.mailboxDone f a none
      | .inr l => s.mailboxDone f 0 (some l)

/-- The host uses the mailbox of function f: it fills MB_CMD and, for a write, the data window, and sets GO. -/
def State.mailboxOp (s : State) (f : Fn) (write : Bool) (idx sub : Nat) (l : List Byte) (ok : Bool) : State :=
  let x := s.mailbox f
  if s.rst.perstLow || s.inReset || x.busy || (s.node = .fault && f ≠ .pf) then s
  else
    let s := s.setMailbox f { x with
      op := write, index := BitVec.ofNat 16 idx, sub := BitVec.ofNat 8 sub,
      len := if write then BitVec.ofNat 14 (min l.length 8192) else x.len,
      data := if write then windowPut x.data (l.take 8192) else x.data }
    s.mailboxGo f ok

/-- A free bit: how the flash operation of a STORE ends where no command says it. -/
def State.flip (s : State) : Bool × State :=
  let f := s.fresh
  (f.1.getLsbD 0, f.2)

def execMailboxRead (f : Fn) (idx : Half) (sub : Byte) (s : State) : Host.Outcome State Fault Refusal :=
  .next (s.mailboxOp f false idx.toNat sub.toNat [] true)

def execMailboxWrite (f : Fn) (idx : Half) (sub : Byte) (bytes : List Byte) (s : State) : Host.Outcome State Fault Refusal :=
  let b := s.flip
  .next (b.2.mailboxOp f true idx.toNat sub.toNat bytes b.1)

/-! ## A write through one of the paths -/

/-- The write that a dictionary command makes: through ZMP, answered in resp, or as a mailbox operation. ZMP serves an
addressed device after INIT (R469). -/
def State.pathWrite (s : State) (path : Path) (idx sub : Nat) (l : List Byte) (ok : Bool) : State :=
  match path with
  | .pf => s.mailboxOp .pf true idx sub l ok
  | .vf p => s.mailboxOp (.vf p) true idx sub l ok
  | .zmp =>
    if s.node = .init || s.node = .unaddressed || s.mgmt.addr = 0 || s.distaffRunning = 0 || s.inReset then s
    else
      let r := s.dictWrite .zmp ok idx sub l
      if s.storeBegun r.2 then { r.2.storeFor .resp with resp := .none }
      else { r.2 with resp := if r.1 = 0 then .data [] else .abort r.1 }

def execStepForbid (path : Path) (v : Byte) (s : State) : Host.Outcome State Fault Refusal :=
  .next (s.pathWrite path 0x2010 3 [v] true)

def execStatReset (path : Path) (v : Byte) (s : State) : Host.Outcome State Fault Refusal :=
  .next (s.pathWrite path 0x5010 10 [v] true)

def execOwner (path : Path) (h : HankId) (v : Byte) (s : State) : Host.Outcome State Fault Refusal :=
  .next (s.pathWrite path (0x3100 + h.toNat) 1 [v] true)

def execFabricHoop (path : Path) (h : HankId) (v : Byte) (s : State) : Host.Outcome State Fault Refusal :=
  .next (s.pathWrite path (0x3100 + h.toNat) 2 [v] true)

def execScrubOnHandover (path : Path) (h : HankId) (v : Byte) (s : State) : Host.Outcome State Fault Refusal :=
  .next (s.pathWrite path (0x3100 + h.toNat) 3 [v] true)

/-- ENABLE of record r, 0 to 254; r = 255 names 0x32FF.07, which is read-only. -/
def execEnable (path : Path) (r : Byte) (v : Byte) (s : State) : Host.Outcome State Fault Refusal :=
  .next (s.pathWrite path (0x3200 + r.toNat) 7 [v] true)

def execPcRetired (path : Path) (hi : Bool) (v : DWord) (s : State) : Host.Outcome State Fault Refusal :=
  .next (s.pathWrite path 0x32FF (if hi then 2 else 1) (bytesOfNat 8 v.toNat) true)

def execModeReq (path : Path) (p : PartId) (v : Byte) (s : State) : Host.Outcome State Fault Refusal :=
  .next (s.pathWrite path (0x3000 + p.toNat) 1 [v] true)

def execPartitionTableWrite (path : Path) (p : PartId) (sub : Byte) (bytes : List Byte) (s : State) :
    Host.Outcome State Fault Refusal :=
  .next (s.pathWrite path (0x3000 + p.toNat) sub.toNat bytes true)

def execPatternCard (path : Path) (k : Spindle) (bytes : List Byte) (s : State) : Host.Outcome State Fault Refusal :=
  .next (s.pathWrite path (0x4E00 + k.toNat) 1 bytes true)

def execReplayContext (path : Path) (p : PartId) (v : Word) (s : State) : Host.Outcome State Fault Refusal :=
  .next (s.pathWrite path (0x3000 + p.toNat) 16 (bytesOfNat 4 v.toNat) true)

def execEmcyAck (path : Path) (code : Half) (s : State) : Host.Outcome State Fault Refusal :=
  .next (s.pathWrite path 0x1100 12 (bytesOfNat 2 code.toNat) true)

/-- STORE: verified says whether the bank reads back with a valid CRC. -/
def execStore (path : Path) (bytes : List Byte) (verified : Bool) (s : State) : Host.Outcome State Fault Refusal :=
  .next (s.pathWrite path 0x1200 1 bytes verified)

def execRestoreDefaults (path : Path) (bytes : List Byte) (s : State) : Host.Outcome State Fault Refusal :=
  .next (s.pathWrite path 0x1200 2 bytes true)

/-- GO of slot k, 0 to 15; another k names an entry that does not exist. -/
def execGo (path : Path) (k : Byte) (v : Byte) (s : State) : Host.Outcome State Fault Refusal :=
  .next (s.pathWrite path (0x4800 + k.toNat) 3 [v] true)

def execResetPartition (path : Path) (v : Byte) (s : State) : Host.Outcome State Fault Refusal :=
  .next (s.pathWrite path 0x6000 4 [v] true)

def execStandby (path : Path) (s : State) : Host.Outcome State Fault Refusal := .next (s.pathWrite path 0x6000 5 [1] true)

def execStandbyExit (path : Path) (s : State) : Host.Outcome State Fault Refusal := .next (s.pathWrite path 0x6000 5 [0] true)

def execErrClear (path : Path) (key : Word) (s : State) : Host.Outcome State Fault Refusal :=
  .next (s.pathWrite path 0x5100 34 (bytesOfNat 4 key.toNat) true)

def execRecordClear (path : Path) (key : Word) (s : State) : Host.Outcome State Fault Refusal :=
  .next (s.pathWrite path 0x5F00 8 (bytesOfNat 4 key.toNat) true)

def execTestGo (path : Path) (v : Byte) (s : State) : Host.Outcome State Fault Refusal :=
  .next (s.pathWrite path 0x6001 3 [v] true)

def execMcodePatch (path : Path) (bytes : List Byte) (s : State) : Host.Outcome State Fault Refusal :=
  .next (s.pathWrite path 0x2030 1 bytes true)

end Sys2Proof.Machine
end

