-- ==== Sys2Proof/Machine/Startup.lean ====
section
/-! DEFINITION. Start-up and the end of INIT (17 R489, R490, R507, R510, 16 R458, R462, R478). -/

namespace Sys2Proof.Machine
open Sys2Proof

/-- ADDR_STRAP is sampled; a soft reset keeps what was sampled before (R458). -/
def State.sampleStrap (s : State) (v : BitVec 5) : State :=
  if s.rst.cause = 4 then s
  else { s with mgmt := { s.mgmt with strap := v, addr := v, src := if v = 0 then 0 else 1 } }

/-- Pseudo-channels that fail training are retired and logged. -/
def State.retireFailed (s : State) (failed : BitVec 128) (log : Bool) : State :=
  let s := (List.range 4).foldl (fun s k =>
    let w : Word := BitVec.ofNat 32 (fld failed.toNat (32 * k) 32)
    let x := s.stack k
    s.setStack k { x with retired := x.retired ||| w, retire := x.retire.map fun (v : Word) => v ||| w }) s
  if log then ((List.range 128).filter fun p => bitOf failed.toNat p).foldl (fun s p => s.logErr 0x2009 p) s else s

/-- A logical spindle leaves every partition mask (R510). -/
def State.unmask (s : State) (k : Nat) : State :=
  (List.range 16).foldl (fun s p =>
    let x := s.part p
    s.setPart p (if k < 64 then { x with spin0 := x.spin0 &&& ~~~(BitVec.ofNat 64 (2 ^ k)) }
      else { x with spin1 := x.spin1 &&& ~~~(BitVec.ofNat 64 (2 ^ (k - 64))) })) s

/-- The start-up tests: positions that fail join POS_FAIL. -/
def State.startTests (s : State) (failed : BitVec 144) : State :=
  if s.dget 0x6000 3 = 0 then s
  else ((List.range 144).filter fun w => bitOf failed.toNat w).foldl (fun s w => (s.setPosFail w).logErr 0x2008 w) s

/-- Positions in POS_FAIL are off; the spare takes the first mapped one of its hoop, and the others leave their spindle without
a position. -/
def State.replaceFailed (s : State) : State :=
  let s := (List.range 144).foldl (fun s w => if s.posFailed w then s.posOff w else s) s
  (List.range 128).foldl (fun s k =>
    if !s.posFailed (s.posOf k) then s
    else match s.spareOf (k / 8) with
      | some w => (s.setMap k w).setCore k (Core.init k)
      | none => (s.setOos k true).unmask k) s

/-- Granules marked in GRAN_SEAL are zeroed and the marks clear (R489). -/
def State.zeroSealed (s : State) : State :=
  s.rst.granSeal.foldl (fun s e => if e.2 then (s.zeroRange (e.1 * 2 ^ 26) (2 ^ 26)).setSeal e.1 false else s) s

/-- After the firmware's signature is verified: Table 17-3 from 45 ms to 935 ms. -/
def State.startFirmware (s : State) (inp : StartupInputs) : State :=
  let s := { s with mem := s.mem.filter fun e => e.1 < 0x0017FC000000 || 0x0017FE000000 ≤ e.1 }
  let s := [0, 1, 2, 3].foldl State.kickDog s.fillSummary
  let s := ((s.dset 0x1200 5 inp.flashKiB.toNat).restoreStored).retireFailed inp.chanFailed false
  let s := ((s.startTests inp.posFailed).zeroSealed).replaceFailed
  { s with rst := { s.rst with started := true } }

/-- STARTUP: the cause of the reset has ended, no rail is low (Table 17-1), and after a thermal trip every sensor reads at or
below the release level
(R490). -/
def State.startUp (s : State) (inp : StartupInputs) : State :=
  let hot := s.rst.tripped && (List.range 18).any fun i => releaseLevel < s.temp i
  if s.node ≠ .init || s.rst.started || s.rst.pwrLow || s.rst.resetLow || s.rst.low ≠ 0 || hot then s
  else
    let s := { s with rst := { s.rst with held := false, tripped := false } }
    let s := s.sampleStrap inp.strap
    match inp.pllFailed.filter fun (p : BitVec 3) => p.toNat ≤ 6 with
    | some p => ({ s with time := { s.time with locked := true } }).pllFault p.toNat
    | none =>
      let s := { s with
        hanks := s.hanks.map fun (e : Nat × Hank) => (e.1, { e.2 with ueRow := 0, ueBgroup := 0, ueBank := 0 })
        time := { s.time with locked := true }, qe := { s.qe with boot := true, free := 524288 } }
      let s := (s.hbmSleep false).retireFailed inp.chanFailed true
      match inp.stackFailed with
      | some k => s.fatal 0x3005 k.toNat
      | none => if inp.firmwareOk then s.startFirmware inp else s.hwFatal 0x3001 0 false

def execStartup (inp : StartupInputs) (s : State) : Host.Outcome State Fault Refusal := .next (s.startUp inp)

/-- INIT_END: in PREOP with an address, and CHAIN_OUT rises; in UNADDRESSED without one. BOOT clears (06 R216). -/
def State.endInit (s : State) : State :=
  if s.node ≠ .init || !s.rst.started || s.inReset then s
  else
    let s := { s with qe := { s.qe with boot := false } }
    if s.mgmt.addr = 0 then s.setNode .unaddressed
    else ({ s with mgmt := { s.mgmt with chainOut := true } }).toPreop

def execInitEnd (s : State) : Host.Outcome State Fault Refusal := .next s.endInit

end Sys2Proof.Machine
end

