-- ==== Sys2Proof/Machine/Mgmt.lean ====
section
/-! DEFINITION. The Zurum Management Protocol (16 R455 to R472, R482, R483): reception, requests, block transfers, NMT commands,
chain assignment, PLCA, and transmission. -/

namespace Sys2Proof.Machine
open Sys2Proof

/-! ## Frames (R464) and transmission (R456, R457, R466) -/

/-- The node field of a frame the device sends. -/
def State.ownNode (s : State) : Nat := if s.mgmt.addr = 0 then 0xFE else s.mgmt.addr.toNat

/-- Table 16-5, padded to 46 bytes. -/
def zmpBytes (dst src seq alive opcode idx sub : Nat) (payload : List Byte) : List Byte :=
  let body := bytesOfNat 1 1 ++ bytesOfNat 1 dst ++ bytesOfNat 1 src ++ bytesOfNat 2 seq ++ bytesOfNat 1 alive ++
    bytesOfNat 1 opcode ++ bytesOfNat 2 idx ++ bytesOfNat 1 sub ++ bytesOfNat 2 payload.length ++ payload
  let l := body ++ bytesOfNat 4 (crcOf 0 body)
  l ++ List.replicate (46 - l.length) 0

/-- The Ethernet header of every frame the device sends: broadcast, from the address 02 and serial[39:0], most significant byte
first, EtherType 0x88B5 (R455). -/
def zmpEthHead : List Byte :=
  List.replicate 6 0xFF ++ [0x02] ++ (bytesOfNat 5 (Config.factory 0x1000 5)).reverse ++ [0x88, 0xB5]

/-- Send a frame: the alive counter of its destination advances first. SEQ of a frame that answers nothing is free; a NOTIFY
carries the value at the time of sending (R483); a held emergency notes the instant (R472). -/
def State.sendZmp (s : State) (x : ZmpTx) : State :=
  let alive := tabGet 0 s.mgmt.aliveTx x.dst + 1
  let f := s.fresh
  let seq := if x.kind = 1 then x.seq else f.1.toNat % 2 ^ 16
  let s := if x.kind = 1 then s else f.2
  let payload := if x.kind = 2 then (match s.dictRead .zmp x.index x.sub with | .inr l => l | .inl _ => []) else x.payload
  let s := { s with mgmt := { s.mgmt with
    aliveTx := tabSet 0 s.mgmt.aliveTx x.dst alive
    emcy := s.mgmt.emcy.map fun e => if emcyTx e = x then { e with sent := some s.clock.cycles } else e } }
  s.send (.zmp (zmpEthHead ++ zmpBytes x.dst s.ownNode seq alive.toNat x.opcode x.index x.sub payload))

/-- Firmware serves ZMP: after INIT, and with a distaff core running (R462, 17 R505). -/
def State.zmpAlive (s : State) : Bool := s.node ≠ .init && decide (0 < s.distaffRunning) && !s.inReset

/-- EMERGENCY frames that wait. -/
def Mgmt.urgent (m : Mgmt) : Nat := (m.txq.filter fun x => x.kind = 0).length

/-- Send the first n frames that wait. -/
def State.sendQueued (s : State) : Nat → State
  | 0 => s
  | n + 1 =>
    match s.mgmt.txq with
    | [] => s
    | x :: r => (({ s with mgmt := { s.mgmt with txq := r } }).sendZmp x).sendQueued n

/-! ## Reception (R465 to R467, R461) -/

/-- Count in an entry of 0x1120. -/
def State.zmpCount (s : State) (sub n : Nat) : State := s.dset 0x1120 sub (sat32 (s.dget 0x1120 sub + n))

/-- Queue a response and keep it as the last one of its requester (R467). -/
def State.answerZmp (s : State) (src seq : Nat) (x : ZmpTx) : State :=
  { s with mgmt := { s.mgmt with txq := txPut s.mgmt.txq x, last := tabSet none s.mgmt.last src (some (seq, x)) } }

/-- The response to opcode op: RESP, and ABORT with the code as payload. -/
def respTx (src seq op idx sub abort : Nat) (payload : List Byte) : ZmpTx :=
  { kind := 1, dst := src, seq := seq, opcode := op + 16 + (if abort = 0 then 0 else 32), index := idx, sub := sub,
    payload := if abort = 0 then payload else bytesOfNat 4 abort }

/-- The stored response of a repeated request goes again. -/
def State.resend (s : State) (x : ZmpTx) : State := { s with mgmt := { s.mgmt with txq := txPut s.mgmt.txq x } }

/-- The destination is this device: its address, broadcast with an NMT command or an ASSIGN offer, or 0xFE with an ASSIGN
confirm (Table 16-4). resp: the frame is a response. -/
def State.zmpForUs (s : State) (dst op len : Nat) (resp : Bool) : Bool :=
  if dst = 0xFF then op = 7 || (op = 8 && len = 2 && !resp)
  else if dst = 0xFE then op = 8 && len = 10 && !resp
  else dst ≠ 0 && dst = s.mgmt.addr.toNat

/-- The key of the alive state (R466). -/
def aliveKey (src dst : Nat) : Nat := if dst = 0xFF then 2 * src + 1 else if dst = 0xFE then 512 + src else 2 * src

/-- An accepted frame that is no response joins the receive queue, unless the queue holds 16. A broadcast NMT command without a
code of Table 16-7 is ignored, and so is a confirm of another serial. mine: the payload begins with the device's serial. -/
def State.zmpAccept (s : State) (src dst seq op : Nat) (code : Option Byte) (mine : Bool) : State :=
  let nmtBad := op = 7 && !(match code with
    | some c => c = 1 || c = 2 || (0x80 ≤ c.toNat && c.toNat ≤ 0x83)
    | none => false)
  if (dst = 0xFF && nmtBad) || (dst = 0xFE && !mine) then s
  else if 16 ≤ s.mgmt.rxq.length then s.zmpCount 5 1
  else
    let o := op + (if nmtBad then 16 else 0) + (if dst = 0xFF then 32 else if dst = 0xFE then 64 else 0)
    { s with mgmt := { s.mgmt with rxq := s.mgmt.rxq ++ [(src, seq, o)] } }

/-- What becomes of a request that no command of the table executes, when its turn comes: the abort code it is answered with, 0 for
none; nothing for a request that a command executes. A reserved opcode and an NMT code outside Table 16-7 (R465, R471), a
device's own opcode sent to it, and an ASSIGN frame at an addressed device (R460); in FAULT STATE answers them (R469). -/
def State.rxSelf (s : State) (o : Nat) : Option Nat :=
  if o = 40 || o = 72 then (if s.node = .unaddressed then none else some 0)
  else if s.node = .fault && (o = 0 || o = 5 || o = 6 || 8 ≤ o) && o < 32 then some abState
  else if o = 5 || o = 6 || o = 8 then some 0
  else if o = 0 || (9 ≤ o && o ≤ 15) then some abNoOpcode
  else if o = 23 then some abRange
  else none

/-- The request at the head of the receive queue ends when no command executes it (R468): in the order of receipt, one in a TIME
cycle, once the transmit queue has space (R457). -/
def State.rxTurn (s : State) : State :=
  match s.mgmt.rxq with
  | [] => s
  | (src, seq, o) :: r =>
    match s.rxSelf o with
    | none => s
    | some a =>
      if !s.zmpAlive || 16 ≤ s.mgmt.txq.length then s
      else
        let s := { s with mgmt := { s.mgmt with rxq := r } }
        if a = 0 then s
        else
          let x := respTx src seq (o % 16) 0 0 a []
          match tabGet none s.mgmt.last src with
          | some p => if p.1 = seq then s.resend p.2 else s.answerZmp src seq x
          | none => s.answerZmp src seq x

/-- ZMP_FRAME_RECEIVE: frames of another EtherType, with a bad FCS or longer than 1,518 bytes are dropped and counted (R455); an
accepted frame is source ZMP (12 Table 12-9). -/
def State.zmpReceive (s : State) (f : MgmtFrame) : State :=
  let l := f.bytes
  let len := beyond l 10 2
  let dst := beyond l 1 1
  let src := beyond l 2 1
  let code := beyond l 6 1
  let op := code % 16
  if !s.zmpAlive then s
  else if f.etype ≠ 0x88B5 || !f.fcsOk || 1500 < l.length then s.zmpCount 6 1
  else if beyond l 0 1 ≠ 1 || 1400 < len || l.length < 16 + len then s.zmpCount 5 1
  else if beyond l (12 + len) 4 ≠ crcOf 0 (l.take (12 + len)) then s.zmpCount 1 1
  else
    let own := s.mgmt.addr ≠ 0 && src = s.mgmt.addr.toNat
    let s := if own then (s.dset 0x1120 9 1).emergency 0x0070 src else s
    if !s.zmpForUs dst op len (bitOf code 4) || 64 ≤ code then s.zmpCount 5 1
    else
      let key := aliveKey src dst
      let a := aliveCheck (tabGet none s.mgmt.aliveRx key) (l.getD 5 0)
      let s := match a.1 with
        | 1 => s.zmpCount 2 1
        | 2 => s.zmpCount 3 a.2.2
        | 3 => s.zmpCount 4 1
        | _ => s
      if !a.2.1 then s
      else
        let s := { s with mgmt := { s.mgmt with aliveRx := tabSet none s.mgmt.aliveRx key (some (l.getD 5 0)) } }.l2Event 25
        if bitOf code 4 then s else s.zmpAccept src dst (beyond l 3 2) op (if len = 0 then none else some (l.getD 12 0))
          ((l.drop 12).take 8 = bytesOfNat 8 (Config.factory 0x1000 5))

def execZmpFrameReceive (f : MgmtFrame) (s : State) : Host.Outcome State Fault Refusal := .next (s.zmpReceive f)

/-! ## Execution of requests (R467, R468, R469) -/

/-- Remove the first waiting request that p selects. -/
def State.dequeue (s : State) (p : Nat × Nat × Nat → Bool) : State := { s with mgmt := { s.mgmt with rxq := s.mgmt.rxq.eraseP p } }

/-- No request that was received earlier waits before this one (R468). -/
def State.inTurn (s : State) (src seq op : Nat) : Bool :=
  match s.mgmt.rxq with
  | [] => true
  | e :: r => e = (src, seq, op) || !r.contains (src, seq, op)

/-- The same for a broadcast or an ASSIGN frame, of code o in the receive queue. -/
def State.inTurnOf (s : State) (o : Nat) : Bool :=
  match s.mgmt.rxq with
  | [] => true
  | e :: r => e.2.2 = o || !r.any fun x => x.2.2 = o

/-- The SEQ of the first waiting request of code o. -/
def State.rxSeq (s : State) (o : Nat) : Option Nat := (s.mgmt.rxq.find? fun e => e.2.2 = o).map fun e => e.2.1

/-- The running flash operation answers request seq of node src. -/
def State.storeAnswers (s : State) (src seq : Nat) : Bool :=
  match s.mgmt.storing with
  | some x => (match x.answer with
    | some (.zmp a q _) => a = src && q = seq
    | _ => false)
  | none => false

/-- Execute a unicast request of node src, in the order of receipt (R468): while the transmit queue is full it waits (R457);
the SEQ of the stored response gets that response again; else f gives the response and the state. The response of a request
that resets the device goes out before the reset begins (17 Table 17-1), and that of a STORE waits for its end (R477), which a
repeated request does not begin again. An UNADDRESSED device receives none. -/
def State.serve (s : State) (src seq op : Nat) (f : State → ZmpTx × State) : State :=
  let run (s : State) : State :=
    let r := f s
    if s.storeBegun r.2 then r.2.storeFor (.zmp src seq r.1)
    else if r.2.node = .init then { r.2 with sent := (s.sendZmp r.1).sent } else r.2.answerZmp src seq r.1
  if !s.zmpAlive || s.mgmt.addr = 0 || 16 ≤ s.mgmt.txq.length || !s.inTurn src seq op then s
  else
    let s := s.dequeue fun e => e.1 = src && e.2.1 = seq && e.2.2 = op
    if s.storeAnswers src seq then s
    else match tabGet none s.mgmt.last src with
      | some p => if p.1 = seq then s.resend p.2 else run s
      | none => run s

def execRead (src : Byte) (seq : Half) (idx : Half) (sub : Byte) (s : State) : Host.Outcome State Fault Refusal :=
  .next (s.serve src.toNat seq.toNat 1 fun s =>
    let resp := respTx src.toNat seq.toNat 1 idx.toNat sub.toNat
    match s.dictRead .zmp idx.toNat sub.toNat with
    | .inl a => (resp a [], s)
    | .inr l => (if 1400 < l.length then resp abLength [] else resp 0 l, s))

/-- A WRITE; the end of a STORE's flash operation is a free bit. -/
def execWrite (src : Byte) (seq : Half) (idx : Half) (sub : Byte) (bytes : List Byte) (s : State) :
    Host.Outcome State Fault Refusal :=
  .next (s.serve src.toNat seq.toNat 2 fun s =>
    let b := s.flip
    let r := if 1400 < bytes.length then (abLength, s) else b.2.dictWrite .zmp b.1 idx.toNat sub.toNat bytes
    (respTx src.toNat seq.toNat 2 idx.toNat sub.toNat r.1 [], r.2))

/-- BLOCK_READ: the value's total size and at most len bytes from the offset. -/
def execBlockRead (src : Byte) (seq : Half) (idx : Half) (sub : Byte) (off : Word) (len : Half) (s : State) :
    Host.Outcome State Fault Refusal :=
  .next (s.serve src.toNat seq.toNat 3 fun s =>
    let resp := respTx src.toNat seq.toNat 3 idx.toNat sub.toNat
    match s.dictRead .zmp idx.toNat sub.toNat with
    | .inl a => (resp a [], s)
    | .inr l =>
      (if len = 0 || 1396 < len.toNat then resp abLength []
        else resp 0 (bytesOfNat 4 l.length ++ (l.drop off.toNat).take len.toNat), s))

/-- The largest size of an entry's value; 8,192 where the entry does not exist. -/
def largest (idx sub : Nat) : Nat :=
  match dictRow idx sub with
  | some r => min r.ty.maxSize 8192
  | none => 8192

/-- A gap of 1 s since the session's latest segment (R470). -/
def BlockSess.timedOut (x : BlockSess) (cycle : Nat) : Bool := decide (x.at_ + 1000000000 ≤ cycle)

/-- One segment of a block write (R470): the abort code and the state. -/
def State.blockSegment (s : State) (src idx sub off total : Nat) (l : List Byte) : Nat × State :=
  let set (s : State) (x : Option BlockSess) : State :=
    { s with mgmt := { s.mgmt with blocks := tabSet none s.mgmt.blocks src x } }
  let extend (x : BlockSess) : Nat × State :=
    let data := x.data ++ l
    if total < data.length then (abLength, set s none)
    else if data.length < total then (0, set s (some { x with data := data, at_ := s.clock.cycles }))
    else
      let b := (set s none).flip
      b.2.dictWrite .zmp b.1 idx sub data
  if s.node = .fault then (abState, s)
  else if 1392 < l.length then (abLength, s)
  else if off = 0 then
    if largest idx sub < total then (abLength, set s none) else extend ⟨idx, sub, total, [], s.clock.cycles⟩
  else match tabGet none s.mgmt.blocks src with
    | some x =>
      if x.index = idx && x.sub = sub && x.total = total && x.data.length = off && !x.timedOut s.clock.cycles then extend x
      else (abSequence, set s none)
    | none => (abSequence, s)

def execBlockWrite (src : Byte) (seq : Half) (idx : Half) (sub : Byte) (off total : Word) (bytes : List Byte) (s : State) :
    Host.Outcome State Fault Refusal :=
  .next (s.serve src.toNat seq.toNat 4 fun s =>
    let r := s.blockSegment src.toNat idx.toNat sub.toNat off.toNat total.toNat bytes
    (respTx src.toNat seq.toNat 4 idx.toNat sub.toNat r.1 [], r.2))

/-- BLOCK_SESSION_TIMEOUT: a session whose latest segment is 1 s old is discarded. -/
def State.blockTimeout (s : State) (src : Nat) : State :=
  match tabGet none s.mgmt.blocks src with
  | some x =>
    if x.timedOut s.clock.cycles then { s with mgmt := { s.mgmt with blocks := tabSet none s.mgmt.blocks src none } } else s
  | none => s

def execBlockSessionTimeout (src : Byte) (s : State) : Host.Outcome State Fault Refusal := .next (s.blockTimeout src.toNat)

/-! ## The end of a STORE or RESTORE_DEFAULTS (R477, R485) -/

/-- The answer to the write that began a flash operation: abort code a, 0 for none. -/
def State.storeAnswer (s : State) (x : Option StoreAnswer) (a : Nat) : State :=
  match x with
  | some (.zmp src seq y) =>
    s.answerZmp src seq (if a = 0 then y else { y with opcode := y.opcode + 32, payload := bytesOfNat 4 a })
  | some .resp => { s with resp := if a = 0 then .data [] else .abort a }
  | some (.mailbox f) => s.mailboxDone f a none
  | none => s

/-- The flash operation x ends: what it wrote reads back, or EMERGENCY 0x0061 and FLASH tell that it failed, which leaves the other
bank as it was. Its end is source QSPI (12 Table 12-9). -/
def State.storeFinish (s : State) (x : StoreRun) : State :=
  let s := (match x.bank with
    | some b => if x.ok then { s with mgmt := s.mgmt.setBank b.1 b.2.image } else s
    | none => s).l2Event 26
  if x.ok then s.storeAnswer x.answer 0
  else
    let f := s.fresh
    (f.2.emergency 0x0061 (f.1.toNat % 2 ^ 32)).storeAnswer x.answer abFlash

/-- A fatal error abandons the operation: nothing more is written, a mailbox operation ends with STATE and a ZMP request is not
answered (R485, 17 R504; DEDUCED, log entry 157). -/
def State.storeAbandon (s : State) (x : StoreRun) : State :=
  match x.answer with
  | some (.mailbox f) => s.mailboxDone f abState none
  | _ => s

/-- The response of the running operation finds room among the frames for transmission (R457). -/
def StoreRun.mayEnd (x : StoreRun) (q : Nat) : Bool :=
  match x.answer with
  | some (.zmp _ _ _) => decide (q < 16)
  | _ => true

/-- A running flash operation may end in a nanosecond: in which is a free choice (DESIGN CHOICE, log entry 157: R468 bounds it by
1 s). -/
def State.storeTick (s : State) : State :=
  match s.mgmt.storing with
  | none => s
  | some x =>
    let done (t : State) : State := { t with mgmt := { t.mgmt with storing := none } }
    if s.node = .fault then (done s).storeAbandon x
    else
      let r := s.fresh
      if r.1.getLsbD 0 && x.mayEnd s.mgmt.txq.length then (done r.2).storeFinish x else r.2

/-! ## NMT commands (R471) -/

/-- Command c of Table 16-7 as it arrives: a broadcast without a row in Table 16-3 is ignored, a unicast is answered, a write
of NMT_LOCAL is a dictionary write. DETACH exists in NMT_LOCAL only. -/
def State.nmtCommand (s : State) (c : Nat) (via : NmtVia) : State :=
  match via with
  | .localWrite path => s.pathWrite path 0x1100 10 (bytesOfNat 1 c) true
  | .broadcast =>
    if !s.zmpAlive || 16 ≤ s.mgmt.txq.length || !s.inTurnOf 39 then s
    else
      let s := s.dequeue fun e => e.2.2 = 39
      if c = 0x83 then s else (s.nmtLocal c).2
  | .unicast src seq =>
    s.serve src.toNat seq.toNat 7 fun s =>
      let r := if c = 0x83 then (abState, s) else s.nmtLocal c
      (respTx src.toNat seq.toNat 7 0 0 r.1 [], r.2)

def execStart (via : NmtVia) (s : State) : Host.Outcome State Fault Refusal := .next (s.nmtCommand 0x01 via)
def execStop (via : NmtVia) (s : State) : Host.Outcome State Fault Refusal := .next (s.nmtCommand 0x02 via)
def execEnterPreop (via : NmtVia) (s : State) : Host.Outcome State Fault Refusal := .next (s.nmtCommand 0x80 via)
def execResetNode (via : NmtVia) (s : State) : Host.Outcome State Fault Refusal := .next (s.nmtCommand 0x81 via)
def execResetComm (via : NmtVia) (s : State) : Host.Outcome State Fault Refusal := .next (s.nmtCommand 0x82 via)
def execDetach (via : NmtVia) (s : State) : Host.Outcome State Fault Refusal := .next (s.nmtCommand 0x83 via)

/-! ## Chain assignment (R458 to R460) and PLCA (R456) -/

/-- CHAIN_IN as its filter gives it in a TIME cycle: a level takes effect after 20 µs (R459). -/
def Mgmt.chain (m : Mgmt) (cycle : Nat) : Bool := if m.chainAt + 20000 ≤ cycle then m.chainRaw else m.chainIn

/-- An ASSIGN offer: an UNADDRESSED device whose CHAIN_IN is high, with PLCA active, owes a response. -/
def State.assignOffer (s : State) (session : Nat) : State :=
  if !s.zmpAlive || 16 ≤ s.mgmt.txq.length || !s.inTurnOf 40 then s
  else
    let q := s.rxSeq 40
    let s := s.dequeue fun e => e.2.2 = 40
    if s.node = .unaddressed && s.mgmt.chain s.clock.cycles && s.mgmt.plca then
      { s with mgmt := { s.mgmt with respDue := s.mgmt.respDue ++ [(s.clock.cycles, session, q)] } }
    else s

/-- An ASSIGN frame of the device, from its answer to an offer or a confirm: SEQ is the request's (R464); where the command came
without a frame it is free. -/
def assignTx (session : Nat) (seq : Option Nat) : ZmpTx :=
  { kind := if seq.isSome then 1 else 0, dst := 0, seq := seq.getD 0, opcode := 8 + 16, index := 0, sub := 0,
    payload := bytesOfNat 8 (Config.factory 0x1000 5) ++ bytesOfNat 1 session }

/-- The ID in the offer is for the confirm to give. -/
def execAssignOffer (session : Byte) (_addr : Byte) (s : State) : Host.Outcome State Fault Refusal :=
  .next (s.assignOffer session.toNat)

/-- Opportunity 31 of an UNADDRESSED device: the response to its oldest unanswered offer, once 100 µs have passed since that. -/
def State.assignResponse (s : State) : State :=
  match s.mgmt.respDue with
  | [] => s
  | (t, session, q) :: r =>
    if !s.zmpAlive || s.node ≠ .unaddressed || !s.mgmt.plca || s.clock.cycles < t + 100000 then s
    else ({ s with mgmt := { s.mgmt with respDue := r, session := some session, answered := true } }).sendZmp (assignTx session q)

def execAssignResponse (s : State) : Host.Outcome State Fault Refusal := .next s.assignResponse

/-- An ASSIGN confirm that carries this device's serial, and the session of the last offer it answered. -/
def State.assignConfirm (s : State) (session addr : Nat) : State :=
  if !s.zmpAlive || 16 ≤ s.mgmt.txq.length || !s.inTurnOf 72 then s
  else
    let q := s.rxSeq 72
    let s := s.dequeue fun e => e.2.2 = 72
    if s.node = .unaddressed && s.mgmt.answered && s.mgmt.session = some session && 1 ≤ addr && addr ≤ 31 then
      ({ s with mgmt := { s.mgmt with
          addr := BitVec.ofNat 5 addr, src := 2, ackDue := some (s.clock.cycles, q), respDue := [] } }).toPreop
    else s

def execAssignConfirm (session : Byte) (addr : Byte) (s : State) : Host.Outcome State Fault Refusal :=
  .next (s.assignConfirm session.toNat addr.toNat)

/-- The own opportunity after a confirm: the acknowledgement, once 100 µs have passed and no EMERGENCY frame waits (R457, R485);
CHAIN_OUT rises at its end. -/
def State.assignAck (s : State) : State :=
  match s.mgmt.ackDue with
  | none => s
  | some (t, q) =>
    if !s.zmpAlive || s.mgmt.addr = 0 || !s.mgmt.plca || s.clock.cycles < t + 100000 || 0 < s.mgmt.urgent then s
    else ({ s with mgmt := { s.mgmt with ackDue := none, chainOut := true } }).sendZmp (assignTx (s.mgmt.session.getD 0) q)

def execAssignAcknowledgement (s : State) : Host.Outcome State Fault Refusal := .next s.assignAck

/-- A level of CHAIN_IN at the ball: its 20 µs begin, unless it was there already. -/
def execChainIn (level : Bool) (s : State) : Host.Outcome State Fault Refusal :=
  let m := s.mgmt
  .next (if level = m.chainRaw then s
    else { s with mgmt := { m with chainIn := m.chain s.clock.cycles, chainRaw := level, chainAt := s.clock.cycles } })

def execPlcaBeacon (s : State) : Host.Outcome State Fault Refusal :=
  .next (if s.inReset then s else { s with mgmt := { s.mgmt with plca := true, beacon := s.clock.cycles } })

/-- PLCA_TIMEOUT: 4 ms have passed without a beacon (R456). -/
def State.plcaLost (s : State) : State :=
  if s.mgmt.beacon + 4000000 ≤ s.clock.cycles then { s with mgmt := { s.mgmt with plca := false } } else s

def execPlcaTimeout (s : State) : Host.Outcome State Fault Refusal := .next s.plcaLost

/-- Frames after the first in an opportunity (R456): MAX_BURST, when the burst timer spans the gap of 96 bit times between two
frames
(PRESUMED, log entry 152: IEEE 802.3's). -/
def State.burst (s : State) : Nat := if s.dget 0x1100 7 < 96 then 0 else s.dget 0x1100 6

/-- TRANSMIT_OPPORTUNITY id: the own one sends a frame, and up to PLCA_MAX_BURST more while PLCA is active; 31 while
UNADDRESSED sends a due response. An acknowledgement that is due goes after the EMERGENCY frames and before the others (R457,
R485). -/
def State.opportunity (s : State) (id : Nat) : State :=
  if !s.zmpAlive then s
  else if s.node = .unaddressed then (if id = 31 then s.assignResponse else s)
  else if s.mgmt.addr = 0 || id ≠ s.mgmt.addr.toNat then s
  else
    let n := if s.mgmt.plca then 1 + s.burst else 1
    let e := min n s.mgmt.urgent
    let t := s.sendQueued e
    let u := if e < n then t.assignAck else t
    if u.mgmt.ackDue.isNone && s.mgmt.ackDue.isSome then u.sendQueued (n - e - 1) else s.sendQueued n

def execTransmitOpportunity (id : Byte) (s : State) : Host.Outcome State Fault Refusal := .next (s.opportunity id.toNat)

/-! ## Emergencies, NOTIFY, heartbeat (R472, R482, R483) -/

/-- n ms have passed at a cycle since cycle t. -/
def msPassed (t n cycle : Nat) : Bool := decide (t + 1000000 * n ≤ cycle)

/-- A held emergency of a code is due to go again: EMCY_REPEAT_MS have passed since it went last, and none of its frames waits
(R472). -/
def State.emcyDue (s : State) (code : Nat) (e : Emcy) : Bool :=
  e.code = code && !s.mgmt.txq.contains (emcyTx e) &&
    (match e.sent with | some t => msPassed t (s.dget 0x1100 11) s.clock.cycles | none => false)

/-- Every EMCY_REPEAT_MS the held emergencies of a code go again. -/
def State.emcyRepeat (s : State) (code : Nat) : State :=
  if !s.zmpAlive || s.dget 0x1100 11 = 0 then s
  else (s.mgmt.emcy.filter (s.emcyDue code)).foldl (fun t e => t.resend (emcyTx e)) s

def execEmcyRepeat (code : Half) (s : State) : Host.Outcome State Fault Refusal := .next (s.emcyRepeat code.toNat)

/-- Queue a NOTIFY of an entry; a full queue of 16 drops and counts it (R457). -/
def State.queueNotify (s : State) (idx sub : Nat) : State :=
  if 16 ≤ s.mgmt.txq.length then s.zmpCount 7 1
  else s.resend { kind := 2, dst := 0, seq := 0, opcode := 5, index := idx, sub := sub, payload := [] }

/-- NOTIFY_INTERVAL_MS have passed since slot j's last NOTIFY (R483). -/
def State.notifyDue (s : State) (j : Nat) : Bool :=
  match tabGet none s.mgmt.seenAt j with
  | some t => msPassed t (s.dget 0x1100 14) s.clock.cycles
  | none => true

/-- NOTIFY of slot j, an interval after the last one: the watched value has changed. -/
def State.notify (s : State) (j : Nat) : State :=
  let v := s.dget 0x1110 (j + 1)
  if !s.zmpAlive || s.mgmt.addr = 0 || 16 ≤ j || v = 0 || s.watched j = tabGet [] s.mgmt.seen j || !s.notifyDue j then s
  else
    let t := s.queueNotify (v / 256) (v % 256)
    if 16 ≤ s.mgmt.txq.length then t
    else
      let t := t.watch j
      { t with mgmt := { t.mgmt with seenAt := tabSet none t.mgmt.seenAt j (some s.clock.cycles) } }

def execNotify (slot : Byte) (s : State) : Host.Outcome State Fault Refusal := .next (s.notify slot.toNat)

/-- HEARTBEAT_MS have passed since the last heartbeat (R482). -/
def State.beatDue (s : State) : Bool :=
  match s.mgmt.beat with
  | some t => msPassed t (s.dget 0x1100 9) s.clock.cycles
  | none => true

/-- HEARTBEAT: a NOTIFY of the node state every HEARTBEAT_MS. -/
def State.heartbeat (s : State) : State :=
  if !s.zmpAlive || s.mgmt.addr = 0 || s.dget 0x1100 9 = 0 || !s.beatDue then s
  else
    let t := s.queueNotify 0x1100 3
    { t with mgmt := { t.mgmt with beat := some s.clock.cycles } }

def execHeartbeat (s : State) : Host.Outcome State Fault Refusal := .next s.heartbeat

end Sys2Proof.Machine
end

