-- ==== Sys2Proof/Machine/Regs.lean ====
section
/-! DEFINITION. The control registers (05 Table 5-2) and the CSRs of a local window (05 R174): what a read of each returns and
clears, what a write of each does, and which master each block admits (00 R15 to R22, 05 R175). A register is named by its
offset in the control register space, or in its local window; it answers with its width in bytes, its value and the state
that a read leaves. An offset with no register answers none (00 R21). -/

namespace Sys2Proof.Machine
open Sys2Proof

/-- What a register answers: width in bytes, value, and the state after the read; none at an unassigned offset. -/
abbrev RegAcc : Type := Option (Nat × Nat × State)

/-- A number with bit i set where f i holds, for i below n. -/
def bitsOf (n : Nat) (f : Nat → Bool) : Nat := (List.range n).foldl (fun a i => a + b2n (f i) * 2 ^ i) 0

/-! ## Identity (16 Table 16-13) -/

def State.idReg (s : State) (o : Nat) : RegAcc :=
  if o = 0 then some (4, 0x7840 + Config.factory 0x1000 4 % 256 * 2 ^ 16 + b2n gradeAE * 2 ^ 24, s)
  else if o = 8 then some (8, Config.factory 0x1000 5 % 2 ^ 64, s)
  else none

/-! ## Hank control (05 Table 5-5) -/

def State.hankReg (s : State) (o : Nat) : RegAcc :=
  let h := s.hank (o / 0x40)
  if 64 ≤ o / 0x40 then none
  else match o % 0x40 with
    | 0x00 => some (4, h.ownWord, s)
    | 0x08 => some (4, h.pwrWord, s)
    | 0x10 => some (4, h.ce, s)
    | 0x18 => some (8, h.ueWord, s)
    | _ => none

def State.putHankReg (s : State) (o v : Nat) : State :=
  let n := o / 0x40
  match o % 0x40 with
  | 0x00 => s.writeHankOwn n v
  | 0x08 => s.writeHankPwr n (BitVec.ofNat 2 v)
  | 0x10 => s.setHank n { s.hank n with ce := v % 2 ^ 32 }
  | _ => s.setHank n { s.hank n with ueCount := fld v 0 16, ueRow := fld v 16 11, ueBgroup := fld v 27 3, ueBank := fld v 30 3 }

/-! ## HBM controllers (05 Tables 5-10 on) -/

def State.hbmReg (s : State) (o : Nat) : RegAcc :=
  let k := o / 0x10000
  let r := o % 0x10000
  let x := s.stack k
  if 4 ≤ k then none
  else if r = 0 then some (4, b2n x.hot + b2n x.swap * 2 + x.temp.toNat * 2 ^ 8, s)
  else if r = 8 then some (4, x.retired.toNat, s)
  else if 0x4000 ≤ r && r < 0x8000 && r % 4 = 0 then
    some (4, (s.rsvWord (32 * k + (r - 0x4000) / 0x200) ((r - 0x4000) % 0x200 / 4)).toNat, s)
  else none

def State.putHbmReg (s : State) (o v : Nat) : State :=
  let k := o / 0x10000
  let r := o % 0x10000
  if r = 0 then (if bitOf v 1 then s.setSwap k else s)
  else if r = 8 then s.setStack k { s.stack k with retired := BitVec.ofNat 32 v }
  else s.setShadow (32 * k + (r - 0x4000) / 0x200) ((r - 0x4000) % 0x200 / 4) v

/-! ## Queue engine (06 Tables 6-2, 6-3, 6-7) -/

def Queue.attrWord (x : Queue) : Nat :=
  qstateCode x.state + x.owner.toNat * 2 ^ 2 + b2n x.flush * 2 ^ 6 + x.prod.toNat * 2 ^ 7 + x.wmg.toNat * 2 ^ 10 +
    b2n x.wmen * 2 ^ 16 + b2n x.inb.isSome * 2 ^ 17 + b2n x.outb.isSome * 2 ^ 18 + b2n x.mark.isSome * 2 ^ 19 +
    b2n x.err * 2 ^ 20 + x.baseClim * 2 ^ 32

def State.rgnCfg (s : State) (r : Nat) : Nat :=
  let x := s.region r
  x.quota + b2n x.enc * 2 ^ 20 + b2n x.encreq * 2 ^ 21 + b2n x.scrubbing * 2 ^ 22 + b2n x.scrubbing * 2 ^ 23 +
    s.regionUsed r * 2 ^ 24

def WmGroup.cfgWord (x : WmGroup) : Nat :=
  x.high + x.low * 2 ^ 20 + b2n x.en * 2 ^ 40 + x.fcopin.toNat * 2 ^ 41 + b2n x.fcoen * 2 ^ 44 + b2n x.irqen * 2 ^ 45 +
    x.fcimask.toNat * 2 ^ 46

def State.qeReg (s : State) (o : Nat) : RegAcc :=
  let q := s.qe.qsel
  let x := s.queue q
  if o = 0x00 then some (8, s.qe.free + b2n s.qe.boot * 2 ^ 20, s)
  else if o = 0x10 then some (8, q, s)
  else if o = 0x18 then some (8, x.attrWord, s)
  else if o = 0x20 then some (8, x.clim + x.occ * 2 ^ 20 + x.heldN * 2 ^ 40, s)
  else if o = 0x30 then some (8, x.drops, s.setQueue q { x with drops := 0 })
  else if o = 0x38 then some (8, x.result.toNat * 2 ^ 60 + b2n x.busy * 2 ^ 63, s)
  else if 0x1000 ≤ o && o < 0x1200 then
    let r := (o - 0x1000) / 0x20
    let g := s.region r
    if o % 0x20 = 0 then some (8, s.rgnCfg r, s)
    else if o % 0x20 = 8 then some (8, g.ce + g.pe * 2 ^ 32 + g.ue * 2 ^ 48, s)
    else none
  else if 0x2000 ≤ o && o < 0x2400 then
    let g := (o - 0x2000) / 0x10
    let w := s.wmGroup g
    if o % 0x10 = 0 then some (8, w.cfgWord, s)
    else if o % 0x10 = 8 then some (8, s.wmLevel g + b2n w.asserted * 2 ^ 20 + b2n w.change * 2 ^ 21, s)
    else none
  else if o = 0x3000 then
    some (8, bitsOf 8 s.fco + s.qe.fci.toNat * 2 ^ 8 + s.qe.fcien.toNat * 2 ^ 16, s)
  else none

/-- A write of QATTR: RW fields, and ERR by W1C; the watermark groups it leaves and joins follow. -/
def State.putAttr (s : State) (q v : Nat) : State :=
  let x := s.queue q
  let free : Bool := decide (x.state = .free)
  let y : Queue := { x with
    owner := if free then BitVec.ofNat 4 (fld v 2 4) else x.owner
    flush := if free then bitOf v 6 else x.flush
    prod := if free && fld v 7 3 < 5 then BitVec.ofNat 3 (fld v 7 3) else x.prod
    wmg := BitVec.ofNat 6 (fld v 10 6), wmen := bitOf v 16, err := x.err && !bitOf v 20, baseClim := fld v 32 20 }
  let s := s.setQueue q y
  let s := if x.wmen then s.wmUpdate x.wmg.toNat else s
  if y.wmen then s.wmUpdate y.wmg.toNat else s

/-- A write of QCMD: ignored while BUSY is 1, held while the queue's region is scrubbed (R215). -/
def State.putQcmd (s : State) (q v : Nat) : State :=
  if (s.queue q).busy then s
  else match fld v 0 2 with
    | 1 => s.queueCmd q .create (s.createQueue q)
    | 2 => s.queueCmd q (.delete false) (s.deleteQueue q)
    | _ => s

/-- A write of RGN_CFG. A QUOTA that breaks R212, or is below the credits granted, is a reserved value. -/
def State.putRegion (s : State) (r v : Nat) : State :=
  let quota := fld v 0 20
  let others := (List.range 16).foldl (fun a i => if i = r then a else a + (s.region i).quota) 0
  let s := if 458752 < others + quota || quota < s.regionClim r then s else s.setRegion r { s.region r with quota := quota }
  let s := s.writeEncreq r (bitOf v 21)
  if bitOf v 22 then s.startRegionScrub r else s

/-- A write of WM_CFG. Values of HIGH, LOW and EN that leave LOW at or above HIGH with EN = 1 are reserved: the three fields
keep theirs (06 R227, 00 R22). -/
def State.putWm (s : State) (g v : Nat) : State :=
  let x := s.wmGroup g
  let ok := !bitOf v 40 || decide (fld v 20 20 < fld v 0 20)
  (s.setWm g { x with
    high := if ok then fld v 0 20 else x.high, low := if ok then fld v 20 20 else x.low, en := if ok then bitOf v 40 else x.en, fcopin := BitVec.ofNat 3 (fld v 41 3), fcoen := bitOf v 44
    irqen := bitOf v 45, fcimask := BitVec.ofNat 8 (fld v 46 8) }).wmUpdate g

def State.putQeReg (s : State) (o v : Nat) : State :=
  let q := s.qe.qsel
  if o = 0x00 then s.writeBoot (bitOf v 20)
  else if o = 0x10 then { s with qe := { s.qe with qsel := fld v 0 16 } }
  else if o = 0x18 then s.putAttr q v
  else if o = 0x38 then s.putQcmd q v
  else if 0x1000 ≤ o && o < 0x1200 then
    let r := (o - 0x1000) / 0x20
    if o % 0x20 = 0 then s.putRegion r v
    else s.setRegion r { s.region r with ce := fld v 0 32, pe := fld v 32 16, ue := fld v 48 16 }
  else if 0x2000 ≤ o && o < 0x2400 then
    let g := (o - 0x2000) / 0x10
    if o % 0x10 = 0 then s.putWm g v
    else s.setWm g { s.wmGroup g with change := (s.wmGroup g).change && !bitOf v 21 }
  else if o = 0x3000 then { s with qe := { s.qe with fcien := BitVec.ofNat 8 (fld v 16 8) } }
  else s

/-! ## Partition table (07 Table 7-1) -/

def State.partReg (s : State) (o : Nat) : RegAcc :=
  let p := o / 0x100
  let x := s.part p
  if 0x80000 ≤ o && o < 0x80000 + 4 * 1536 && o % 4 = 0 then
    let g := (o - 0x80000) / 4
    some (4, s.granOwner g + b2n (s.granZeroing g) * 32, s)
  else if 16 ≤ p then none
  else match o % 0x100 with
    | 0x00 => some (4, x.mode.toNat + x.target.toNat * 2 ^ 4 + b2n x.pend * 2 ^ 8 + x.phase.toNat * 2 ^ 9 +
        x.errcode.toNat * 2 ^ 16 + b2n x.err * 2 ^ 20, s)
    | 0x10 => some (8, x.spin0.toNat, s)
    | 0x18 => some (8, x.spin1.toNat, s)
    | 0x20 => some (8, x.ctxq + s.ctxUsed p * 2 ^ 32, s)
    | 0x28 => some (4, x.egr.toNat, s)
    | 0x30 => some (8, x.trBase, s)
    | 0x38 => some (8, x.trWr % 2 ^ 32 + x.trUnits.toNat * 2 ^ 32, s)
    | _ => none

def State.putPartReg (s : State) (o v : Nat) : State :=
  let p := o / 0x100
  let x := s.part p
  if 0x80000 ≤ o then s.granWrite ((o - 0x80000) / 4) v
  else match o % 0x100 with
    | 0x00 => s.setPart p { x with target := BitVec.ofNat 3 (fld v 4 3), err := x.err && !bitOf v 20 }
    | 0x10 => s.setPart p { x with spin0 := BitVec.ofNat 64 v }
    | 0x18 => s.setPart p { x with spin1 := BitVec.ofNat 64 v }
    | 0x20 => s.setPart p { x with ctxq := fld v 0 19 }
    | 0x28 => s.setPart p { x with egr := BitVec.ofNat 32 v }
    | 0x30 => if fld v 0 15 = 0 then s.setPart p { x with trBase := fld v 0 48 } else s
    | _ => if fld v 32 7 = 0 then s.setPart p { x with trUnits := BitVec.ofNat 32 (fld v 32 32) } else s

/-! ## Level 2 aggregator (12 Table 12-11) -/

def State.l2Reg (s : State) (o : Nat) : RegAcc :=
  let x := s.l2
  if o < 0x4000 && o % 4 = 0 then some (4, (tabGet (0 : BitVec 7) x.src (o / 4)).toNat, s)
  else if 0x4000 ≤ o && o < 0x4200 && o % 8 = 0 then
    some (8, bitsOf 64 fun i => tabGet false x.pend (64 * ((o - 0x4000) / 8) + i), s)
  else if 0x4200 ≤ o && o < 0x4400 && o % 8 = 0 then
    some (8, bitsOf 64 fun i => tabGet false x.active (64 * ((o - 0x4200) / 8) + i), s)
  else if 0x4400 ≤ o && o < 0x4600 && o % 8 = 0 then some (8, 0, s)
  else if 0x4800 ≤ o && o < 0x4A00 && o % 8 = 0 then
    let g := (o - 0x4800) / 8
    some (8, tabGet 0 x.hold g + ceilDiv (tabGet 0 x.remain g) 64 * 2 ^ 16, s)
  else if 0x5000 ≤ o && o < 0x5100 then
    let c := (o - 0x5000) / 0x40
    match o % 0x40 with
    | 0x00 =>
      let r := s.claimRead c
      some (4, r.1, r.2)
    | 0x08 => some (4, 0, s)
    | 0x10 => some (4, tabGet 0 x.thresh c, s)
    | _ => none
  else if o = 0x5100 then some (4, b2n x.gdis, s)
  else none

def State.putL2Reg (s : State) (o v : Nat) : State :=
  let x := s.l2
  if o < 0x4000 then { s with l2 := { x with src := tabSet (0 : BitVec 7) x.src (o / 4) (BitVec.ofNat 7 v) } }
  else if 0x4400 ≤ o && o < 0x4600 then s.l2SetBits ((o - 0x4400) / 8) (BitVec.ofNat 64 v)
  else if 0x4800 ≤ o && o < 0x4A00 then { s with l2 := { x with hold := tabSet 0 x.hold ((o - 0x4800) / 8) (fld v 0 16) } }
  else if 0x5000 ≤ o && o < 0x5100 then
    let c := (o - 0x5000) / 0x40
    match o % 0x40 with
    | 0x08 => s.completeWrite c (fld v 0 12)
    | 0x10 => { s with l2 := { x with thresh := tabSet 0 x.thresh c (fld v 0 4) } }
    | _ => s
  else if o = 0x5100 then { s with l2 := { x with gdis := bitOf v 0 } }
  else s

/-! ## Shuttles (13 Table 13-2) and check units (13 Table 13-7) -/

def shCode : ShState → Nat
  | .idle => 0
  | .running => 1
  | .stopped => 2
  | .halted => 3

/-- The list that the channel works on: a list has started and has not ended. -/
def Shuttle.statWord (h : Shuttle) : Nat :=
  let bg := match h.cur with | some l => l.dl.isNone | none => false
  shCode h.st + h.ready.length * 2 ^ 2 + h.armed.length * 2 ^ 12 + b2n h.full * 2 ^ 22 + b2n h.armref * 2 ^ 23 +
    h.cause.toNat * 2 ^ 24 + b2n bg * 2 ^ 27

def Shuttle.progWord (h : Shuttle) : Nat :=
  match h.cur with
  | some l => (match l.ctx with
    | some c => h.doneb + c * 2 ^ 24 + 2 ^ 42
    | none => h.doneb)
  | none => h.doneb

/-- The channel, as its logical spindle, of an offset in the shuttle or check-unit blocks; none beyond channel 7. -/
def chanAt (o : Nat) : Option Nat := if o % 0x10000 < 0x800 then some (8 * (o / 0x10000) + o % 0x10000 / 0x100) else none

def State.shReg (s : State) (o : Nat) : RegAcc :=
  match chanAt o with
  | none => none
  | some k =>
    let h := s.shuttle k
    match o % 0x100 with
    | 0x00 => some (8, 0, s)
    | 0x08 => some (8, h.statWord, s)
    | 0x10 => some (8, h.desc, s)
    | 0x18 => some (8, h.progWord, s)
    | 0x20 => some (8, h.faddr + b2n h.dir * 2 ^ 48, s)
    | 0x28 => some (8, b2n h.stop, s)
    | 0x30 => some (8, h.irqs + h.lists * 2 ^ 32, s.setShuttle k { h with irqs := 0, lists := 0 })
    | _ => none

/-- A write of a shuttle register. RESUME, SKIP and ABANDON take a channel that waits: of several written together the ABANDON
applies, then the SKIP, then the RESUME, and only the first (13 R395, R404). -/
def State.putShReg (s : State) (o v : Nat) : State :=
  match chanAt o with
  | none => s
  | some k =>
    let h := s.shuttle k
    match o % 0x100 with
    | 0x00 => s.shArm k (fld v 61 2) v
    | 0x08 => s.setShuttle k { h with full := h.full && !bitOf v 22, armref := h.armref && !bitOf v 23 }
    | 0x28 =>
      if !h.st.waits then (if bitOf v 0 then s.shStop k else s)
      else if bitOf v 3 then s.shAbandon k
      else if bitOf v 2 then (let r := s.freeRead; r.2.shSkip k r.1)
      else if bitOf v 1 then s.shResume k
      else s
    | _ => s

def State.ckReg (s : State) (o : Nat) : RegAcc :=
  match chanAt o with
  | none => none
  | some k =>
    let c := s.check k
    let t := s.checkCtl k
    match o % 0x100 with
    | 0x00 => some (8, c.poly.toNat + c.lv.toNat * 2 ^ 8 + b2n c.v * 2 ^ 16, s)
    | 0x08 => some (8, c.r.toNat, s)
    | 0x10 => some (8, b2n t.airq, s)
    | 0x18 => some (8, t.repeat_ + t.gap * 2 ^ 16 + t.stale * 2 ^ 32, s.setCheckCtl k { t with repeat_ := 0, gap := 0, stale := 0 })
    | _ => none

def State.putCkReg (s : State) (o v : Nat) : State :=
  match chanAt o with
  | none => s
  | some k => if o % 0x100 = 0x10 then s.setCheckCtl k { s.checkCtl k with airq := bitOf v 0 } else s

/-! ## Timebase (14 Table 14-1) -/

def State.tbReg (s : State) (o : Nat) : RegAcc :=
  let t := s.time
  let r (v : Nat) : RegAcc := some (4, v, s)
  match o with
  | 0x00 => r (bvFld t.tb 0 32)
  | 0x04 => r (bvFld t.tb 32 32)
  | 0x08 => r t.setLo.toNat
  | 0x0C => r t.setHi.toNat
  | 0x10 => r (b2n t.stepping + b2n t.slewing * 2 + b2n t.locked * 4 + t.slewRate.toNat * 2 ^ 8 + t.rport.toNat * 2 ^ 16 + b2n t.fref * 2 ^ 21)
  | 0x14 => r t.freq.toNat
  | 0x18 => r (BitVec.ofInt 32 t.slew).toNat
  | 0x20 => r (bvFld t.cap 0 32)
  | 0x24 => r (bvFld t.cap 32 32)
  | 0x28 => r t.seq.toNat
  | 0x2C => r (b2n t.inen + b2n t.inpol * 2 + b2n t.outen * 4 + t.synce.toNat * 8)
  | 0x30 => r t.off
  | 0x34 => r t.width
  | _ => none

/-- A write of TB_CTL; STEP acts with the step value that stands. -/
def State.putTbCtl (s : State) (v : Nat) : State :=
  let t := s.time
  let rate := fld v 8 8
  let s := { s with time := { t with
    slewRate := if rate = 0 || 100 < rate then t.slewRate else BitVec.ofNat 8 rate
    rport := BitVec.ofNat 5 (fld v 16 5)
    fref := bitOf v 21 } }
  if bitOf v 0 then s.stepTime else s

def State.putTbReg (s : State) (o v : Nat) : State :=
  let t := s.time
  match o with
  | 0x08 => { s with time := { t with setLo := BitVec.ofNat 32 v } }
  | 0x0C => { s with time := { t with setHi := BitVec.ofNat 32 v } }
  | 0x10 => s.putTbCtl v
  | 0x14 => s.writeFreq (BitVec.ofNat 32 v)
  | 0x18 => s.writeSlew (BitVec.ofNat 32 v)
  | 0x2C => { s with time := { t with inen := bitOf v 0, inpol := bitOf v 1, outen := bitOf v 2, synce := BitVec.ofNat 2 (fld v 3 2) } }
  | 0x30 => if fld v 0 30 ≤ 999999999 then { s with time := { t with off := fld v 0 30 } } else s
  | 0x34 => if 1 ≤ fld v 0 30 && fld v 0 30 ≤ 999999999 then { s with time := { t with width := fld v 0 30 } } else s
  | _ => s

/-! ## Partition timers (14 Table 14-2) -/

def State.tmReg (s : State) (o : Nat) : RegAcc :=
  let b := s.tblock (o / 0x10000)
  let r (v : Nat) : RegAcc := some (4, v, s)
  let i := o % 0x10000
  if i < 0x400 then
    let t := b.chan (i / 0x40)
    match i % 0x40 with
    | 0x00 => r (b2n t.en + b2n t.down * 2 + b2n t.chain * 4 + t.prescale.toNat * 8 + b2n t.autoadd * 2 ^ 7 +
        b2n t.imatch * 2 ^ 8 + b2n t.izero * 2 ^ 9)
    | 0x04 => r t.cnt.toNat
    | 0x08 => r t.cmp.toNat
    | 0x0C => r t.intv.toNat
    | 0x10 => r t.reload.toNat
    | 0x14 => r t.top.toNat
    | 0x18 => r t.phase.toNat
    | 0x1C => r (b2n t.matched + b2n t.zero * 2 + b2n t.wait * 4)
    | 0x20 => r 0
    | 0x24 => r (t.route.toNat + b2n t.all * 2 ^ 7)
    | _ => none
  else match i with
    | 0x800 => r 0
    | 0x808 => r (bvFld b.at_ 0 32)
    | 0x80C => r (bvFld b.at_ 32 32)
    | 0x810 => r (b.waiting + b2n b.late * 2 ^ 16)
    | _ => none

/-- A write of register i of channel n in a TIME cycle: CHAIN = 1 on channel 0 and an INT above TOP are reserved. EN 1 starts a
channel's ticks; a start by TMB_START in the same cycle goes before EN (Table 14-5). -/
def Timer.put (t : Timer) (n i v cycle : Nat) : Timer :=
  match i with
  | 0x00 => { t with
      en := bitOf v 0 || t.begun = some cycle, origin := if t.en then t.origin else cycle
      last := if !t.en then cycle else if bitOf v 2 = t.chain && fld v 3 4 = t.prescale.toNat then t.last else max t.last (cycle - 1)
      down := bitOf v 1, chain := if n = 0 then t.chain else bitOf v 2
      prescale := BitVec.ofNat 4 (fld v 3 4), autoadd := bitOf v 7, imatch := bitOf v 8, izero := bitOf v 9 }
  | 0x08 => { t with cmp := BitVec.ofNat 32 v }
  | 0x0C => if t.top.toNat < v then t else { t with intv := BitVec.ofNat 32 v }
  | 0x10 => { t with reload := BitVec.ofNat 32 v }
  | 0x18 => { t with phase := BitVec.ofNat 32 v }
  | 0x1C => { t with matched := t.matched && !bitOf v 0, zero := t.zero && !bitOf v 1 }
  | 0x24 => { t with route := BitVec.ofNat 7 v, all := bitOf v 7 }
  | _ => t

def State.putTmReg (s : State) (o v : Nat) : State :=
  let p := o / 0x10000
  let i := o % 0x10000
  let b := s.tblock p
  if i < 0x400 then
    let n := i / 0x40
    if i % 0x40 = 0x04 then s.timerCount p n (BitVec.ofNat 32 v)
    else if i % 0x40 = 0x20 then (if bitOf v 0 then s.timerImmediate p n else s)
    else s.setTblock p (b.setChan n ((b.chan n).put n (i % 0x40) v s.clock.cycles))
  else match i with
    | 0x800 => s.timerStart p v
    | 0x808 => s.setTblock p { b with at_ := bvSet b.at_ 0 32 v }
    | 0x80C => s.setTblock p { b with at_ := bvSet b.at_ 32 32 v }
    | 0x810 => s.setTblock p { b with late := b.late && !bitOf v 16 }
    | _ => s

/-! ## Management bus (16 Table 16-13) -/

def State.t1sReg (s : State) (o : Nat) : RegAcc :=
  let m := s.mgmt
  if o = 0x00 then
    some (4, m.addr.toNat + m.src.toNat * 2 ^ 5 + m.strap.toNat * 2 ^ 8 + b2n (m.chain s.clock.cycles) * 2 ^ 16 + b2n m.chainOut * 2 ^ 17 +
      nodeCode s.node * 2 ^ 20, s)
  else if o = 0x10 then
    some (4, s.dget 0x1100 5 % 256 + s.dget 0x1100 6 % 256 * 2 ^ 8 + s.dget 0x1100 7 % 256 * 2 ^ 16 + b2n m.plca * 2 ^ 24, s)
  else none

def State.putT1sReg (s : State) (o v : Nat) : State :=
  if o = 0x10 then ((s.dset 0x1100 5 (fld v 0 8)).dset 0x1100 6 (fld v 8 8)).dset 0x1100 7 (fld v 16 8) else s

/-! ## Reset and power block (17 R487, Table 17-10a) -/

/-- ERR_FIRST and ERR_LOGn. -/
def errWord (e : Option ErrEnt) (v : Bool) : Nat :=
  match e with
  | some x => x.code.toNat + b2n v * 2 ^ 16 + x.detail.toNat * 2 ^ 32
  | none => 0

def errTb (e : Option ErrEnt) : Nat :=
  match e with
  | some x => x.tb.toNat
  | none => 0

def State.rstReg (s : State) (o : Nat) : RegAcc :=
  let r := s.rst
  if o = 0x00 then some (4, r.cause.toNat + r.rail.toNat * 2 ^ 4, s)
  else if o = 0x10 then some (4, r.warn.toNat % 128 + r.event.toNat % 128 * 2 ^ 8 + b2n (r.holdoff.isSome || r.warn ≠ 0) * 2 ^ 16, s)
  else if o = 0x18 then
    some (4, b2n r.prot + b2n r.protEv * 2 + s.hottestSensor * 2 ^ 8 + twos 16 (s.temp s.hottestSensor) * 2 ^ 16, s)
  else if o = 0x20 then some (4, r.expired.toNat * 2 ^ 4, s)
  else if o = 0x100 then some (8, errWord r.first r.firstV, s)
  else if o = 0x108 then some (8, errTb r.first, s)
  else if o = 0x110 then some (4, r.next.toNat + b2n r.wrap * 2 ^ 5, s)
  else if 0x200 ≤ o && o < 0x400 && o % 8 = 0 then
    let e := tabGet none r.log ((o - 0x200) / 16)
    some (8, if o % 16 = 0 then errWord e (e.any ErrEnt.v) else errTb e, s)
  else if 0x400 ≤ o && o < 0x418 && o % 8 = 0 then
    some (8, bitsOf 64 fun i => decide (8 * (o - 0x400) + i < 144) && s.posFailed (8 * (o - 0x400) + i), s)
  else if 0x500 ≤ o && o < 0x5C0 && o % 8 = 0 then
    some (8, bitsOf 64 fun i => tabGet false r.granSeal (8 * (o - 0x500) + i), s)
  else none

/-- The entry a write of ERR_FIRST or ERR_LOGn leaves: its fields are RWS. -/
def errPut (e : Option ErrEnt) (v : Nat) : ErrEnt :=
  ⟨BitVec.ofNat 16 v, BitVec.ofNat 32 (fld v 32 32), BitVec.ofNat 64 (errTb e), bitOf v 16⟩

def errPutTb (e : Option ErrEnt) (v : Nat) : ErrEnt :=
  match e with
  | some x => { x with tb := BitVec.ofNat 64 v }
  | none => ⟨0, 0, BitVec.ofNat 64 v, false⟩

/-- Write the low bits of v over 64 entries of a table of bits, from entry a, below limit n. -/
def bitsPut (t : Tab Bool) (a n v : Nat) : Tab Bool :=
  (List.range 64).foldl (fun t i => if a + i < n then tabSet false t (a + i) (bitOf v i) else t) t

def State.putRstReg (s : State) (o v : Nat) : State :=
  let r := s.rst
  let set (r : Rst) : State := { s with rst := r }
  if o = 0x10 then set { r with event := r.event &&& ~~~(BitVec.ofNat 8 (fld v 8 7)) }
  else if o = 0x18 then set { r with protEv := r.protEv && !bitOf v 1 }
  else if o = 0x20 then
    let s := set { r with expired := r.expired &&& ~~~(BitVec.ofNat 4 (fld v 4 4)) }
    (List.range 4).foldl (fun s c => if bitOf v c then s.kickDog c else s) s
  else if o = 0x100 then set { r with first := some (errPut r.first v), firstV := bitOf v 16 }
  else if o = 0x108 then set { r with first := some (errPutTb r.first v) }
  else if o = 0x110 then set { r with next := BitVec.ofNat 5 v, wrap := bitOf v 5 }
  else if 0x200 ≤ o && o < 0x400 then
    let i := (o - 0x200) / 16
    let e := tabGet none r.log i
    let e' := if o % 16 = 0 then errPut e v else errPutTb e v
    set { r with log := tabSet none r.log i (if e' = ⟨0, 0, 0, false⟩ then none else some e') }
  else if 0x400 ≤ o && o < 0x418 then set { r with posFail := bitsPut r.posFail (8 * (o - 0x400)) 144 v }
  else if 0x500 ≤ o && o < 0x5C0 then set { r with granSeal := bitsPut r.granSeal (8 * (o - 0x500)) 1535 v }
  else s

/-! ## Controller CSRs of a local window (05 R174, 11 Table 11-7, 12 Table 12-8, 17 R494) -/

/-- L1_CTL: the in-service record of the core state that runs at the position. -/
def State.l1CtlWord (s : State) (w : Nat) : Nat :=
  let g := b2n (s.l1 w).gdis
  match s.logOf w with
  | none => g
  | some k =>
    match (s.cpu k).inServ with
    | some n => g + n.toNat * 2 ^ 8 + 2 ^ 14 + (s.cpu k).xdepth.toNat * 2 ^ 16
    | none => g + (s.cpu k).xdepth.toNat * 2 ^ 16

/-- The CSR at offset o of window w (o from 0x2_0000 on). -/
def State.csrReg (s : State) (w o : Nat) : RegAcc :=
  let x := s.l1 w
  let r (v : Nat) : RegAcc := some (8, v, s)
  if o = 0x20000 then
    some (4, b2n ((s.pos w).st = 1) + b2n (s.pos w).off * 2 + b2n ((s.pos w).st = 4) * 4 + (s.pos w).st.toNat * 2 ^ 8 + (s.pos w).result.toNat * 2 ^ 11, s)
  else if 0x2E000 ≤ o then
    if o % 8 = 0 && (o = 0x2E000 || (0x2E100 ≤ o && o < 0x2E180) || (0x2E400 ≤ o && o < 0x2E600) ||
        (0x2E800 ≤ o && o < 0x2EC00) || 0x2F000 ≤ o) then r (s.mcRead w o)
    else none
  else match o with
    | 0x21000 => r x.pend.toNat
    | 0x21008 => r x.active.toNat
    | 0x21010 => r x.en.toNat
    | 0x21018 => r x.defer.toNat
    | 0x21020 => r 0
    | 0x21028 => r 0
    | 0x21030 => r (s.l1CtlWord w)
    | 0x21100 =>
      let e := s.l1EvtRead w
      some (8, e.1, e.2)
    | _ =>
      if 0x21040 ≤ o && o < 0x21080 && o % 8 = 0 then
        r (tabGet 0 x.hold ((o - 0x21040) / 8) + tabGet 0 x.remain ((o - 0x21040) / 8) * 2 ^ 16)
      else none

/-- A write of POS_CTL: RST, OFF where it changes, BIST. -/
def State.putPosCtl (s : State) (w v : Nat) : State :=
  let s := if bitOf v 0 then s.spindleReset w else s
  let s := if bitOf v 1 = (s.pos w).off then s else s.positionPower w (bitOf v 1)
  if bitOf v 2 then s.positionBist w else s

def State.putCsrReg (s : State) (w o v : Nat) : State :=
  if o = 0x20000 then s.putPosCtl w v
  else if 0x2E000 ≤ o then s.mcWrite w o v
  else match o with
    | 0x21010 => s.l1Write w 0 v
    | 0x21018 => s.l1Write w 1 v
    | 0x21020 => s.l1SetBits w (BitVec.ofNat 64 v)
    | 0x21028 => s.l1ClrBits w (BitVec.ofNat 64 v)
    | 0x21030 => s.l1Write w 10 v
    | _ => if 0x21040 ≤ o && o < 0x21080 then s.l1Write w (2 + (o - 0x21040) / 8) v else s

/-! ## The control register space (05 Table 5-2) -/

/-- The register at offset o of the control register space. -/
def State.regAt (s : State) (o : Nat) : RegAcc :=
  let r := o % 0x100000
  match o / 0x100000 with
  | 0x0 => s.idReg r
  | 0x1 => s.hankReg r
  | 0x2 => s.hbmReg r
  | 0x4 => s.qeReg r
  | 0x5 => s.partReg r
  | 0x6 => s.l2Reg r
  | 0x7 => s.shReg r
  | 0x8 => s.ckReg r
  | 0x9 => s.tbReg r
  | 0xA => s.tmReg r
  | 0xD => s.t1sReg r
  | 0xE => s.rstReg r
  | _ => none

/-- A write of v to the register at offset o. -/
def State.putReg (s : State) (o v : Nat) : State :=
  let r := o % 0x100000
  match o / 0x100000 with
  | 0x1 => s.putHankReg r v
  | 0x2 => s.putHbmReg r v
  | 0x4 => s.putQeReg r v
  | 0x5 => s.putPartReg r v
  | 0x6 => s.putL2Reg r v
  | 0x7 => s.putShReg r v
  | 0x8 => s.putCkReg r v
  | 0x9 => s.putTbReg r v
  | 0xA => s.putTmReg r v
  | 0xD => s.putT1sReg r v
  | 0xE => s.putRstReg r v
  | _ => s

/-! ## Which master a block admits (05 R175) -/

/-- Registers that every HC port and the PCIe function may read (14 R414's text). -/
def tbOpen (r : Nat) : Bool := r = 0x00 || r = 0x04 || r = 0x20 || r = 0x24 || r = 0x28

/-- An HC port of spindle k at privilege pl reaches offset o. -/
def State.hcAdmitted (s : State) (k o : Nat) (write : Bool) : Bool :=
  let r := o % 0x100000
  let pl := (s.cpu k).pl
  match o / 0x100000 with
  | 0x7 => chanAt r = some k && (r % 0x100 = 0 || 1 ≤ pl)
  | 0x9 => !write && tbOpen r
  | 0xA =>
    s.partOf k = some (r / 0x10000) &&
      (1 ≤ pl || (!write && r % 0x10000 < 0x400 && (r % 0x40 = 0x04 || r % 0x40 = 0x1C || r % 0x40 = 0x14)))
  | _ => false

/-- The block admits the access. A block whose chapter names no master admits the distaff cores and the debug port. -/
def State.admitted (s : State) (m : Master) (o : Nat) (write : Bool) : Bool :=
  let r := o % 0x100000
  match m with
  | .distaff _ => true
  | .dbg => !(o / 0x100000 = 0xA && s.sealedOwner (r / 0x10000))
  | .hc k => s.hcAdmitted k.toNat o write
  | .hs _ => false
  | .pcie .pf => !write && (match o / 0x100000 with
    | 0x0 => true
    | 0x9 => tbOpen r
    | 0xD => true
    | _ => false)
  | .pcie (.vf _) => false

/-- The register shows what belongs to a partition in M4: the debug port reads 0 there and changes nothing (05 R205, 07 R254, 06
R229, 13 R396, R403). -/
def State.regSealed (s : State) (o : Nat) : Bool :=
  let r := o % 0x100000
  match o / 0x100000 with
  | 0x1 => s.sealedOwner (s.hank (r / 0x40)).owner.toNat
  | 0x2 => 0x4000 ≤ r % 0x10000 && s.inM4 (fld (s.rsvWord (32 * (r / 0x10000) + (r % 0x10000 - 0x4000) / 0x200) (r % 0x10000 % 0x200 / 4)).toNat 8 7)
  | 0x5 => if 0x80000 ≤ r then s.sealedOwner (s.granOwner ((r - 0x80000) / 4)) else s.sealedOwner (r / 0x100)
  | 0x4 =>
    if 0x18 ≤ r && r < 0x40 then s.sealedOwner (s.queue s.qe.qsel).owner.toNat
    else if 0x1000 ≤ r && r < 0x1200 then s.sealedOwner ((r - 0x1000) / 0x20)
    else if 0x2000 ≤ r && r < 0x2400 then
      s.qe.queues.any fun e => e.2.wmen && e.2.wmg.toNat = (r - 0x2000) / 0x10 && s.sealedOwner e.2.owner.toNat
    else false
  | 0x7 => (match chanAt r with | some k => s.inM4 k | none => false)
  | 0x8 => (match chanAt r with | some k => s.inM4 k | none => false)
  | _ => false

/-- An access of n bytes at offset o by master m: the bytes read, or none for an error response. A register is accessed in its
own width (08 R284); an unassigned offset reads 0 and ignores writes (00 R21). -/
def State.regAccess (s : State) (m : Master) (o n : Nat) (op : BusOp) : Option (List Byte) × State :=
  let write := match op with | .read => false | .write _ => true
  let aligned := (n = 4 || n = 8) && o % n = 0
  if !s.admitted m o write || !aligned then (none, s)
  else match s.regAt o with
    | none => (some (match op with | .read => List.replicate n 0 | .write _ => []), s)
    | some (w, v, s1) =>
      if w ≠ n then (none, s)
      else
        let hide := m = .dbg && s.regSealed o
        match op with
        | .read => if hide then (some (List.replicate n 0), s) else (some (bytesOfNat n v), s1)
        | .write x => (some [], if hide then s else s.putReg o (x.toNat % 2 ^ (8 * n)))

/-- The same for a CSR of window w (offset o from the window's base), which only the distaff cores and the debug port reach. -/
def State.csrAccess (s : State) (w o n : Nat) (op : BusOp) : Option (List Byte) × State :=
  let aligned := (n = 4 || n = 8) && o % n = 0
  if !aligned then (none, s)
  else match s.csrReg w o with
    | none => (some (match op with | .read => List.replicate n 0 | .write _ => []), s)
    | some (x, v, s1) =>
      if x ≠ n then (none, s)
      else match op with
        | .read => (some (bytesOfNat n v), s1)
        | .write d => (some [], s.putCsrReg w o (d.toNat % 2 ^ (8 * n)))

/-! ## BAR0 of the functions (15 Table 15-2, Table 15-3, R429, R441, R442) -/

/-- The doubleword-aligned word d of an MSI-X table: address low and high, data, vector control. -/
def Msix.word (e : Msix) (i : Nat) : Nat :=
  match i with
  | 0 => bvFld e.addr 0 32
  | 1 => bvFld e.addr 32 32
  | 2 => e.data.toNat
  | _ => b2n e.mask

/-- A 32-bit write into an MSI-X table entry; clearing the mask bit lets a pending message go (12 R383). -/
def State.putMsix (s : State) (fn vec i v : Nat) : State :=
  let e := s.msixEnt fn vec
  match i with
  | 0 => s.setMsix fn vec { e with addr := bvSet e.addr 0 32 v }
  | 1 => s.setMsix fn vec { e with addr := bvSet e.addr 32 32 v }
  | 2 => s.setMsix fn vec { e with data := BitVec.ofNat 32 v }
  | _ => if bitOf v 0 then s.setMsix fn vec { e with mask := true } else s.unmaskVector fn vec

/-- MB_CMD and MB_STAT. -/
def Mailbox.cmdWord (x : Mailbox) : Nat :=
  b2n x.op + x.index.toNat * 2 ^ 8 + x.sub.toNat * 2 ^ 24 + x.len.toNat * 2 ^ 32 + b2n x.busy * 2 ^ 62 + b2n x.busy * 2 ^ 63

def Mailbox.statWord (x : Mailbox) : Nat := x.statLen.toNat + b2n x.done * 2 ^ 16 + x.abort.toNat * 2 ^ 32

/-- A write of MB_CMD: the fields, then GO. A length above 8,192 is out of its range. -/
def State.putMbCmd (s : State) (f : Fn) (v : Nat) : State :=
  let x := s.mailbox f
  let len := fld v 32 14
  let s := s.setMailbox f { x with
    op := bitOf v 0, index := BitVec.ofNat 16 (fld v 8 16), sub := BitVec.ofNat 8 (fld v 24 8)
    len := if 8192 < len then x.len else BitVec.ofNat 14 len }
  if bitOf v 62 then
    let b := s.flip
    b.2.mailboxGo f b.1
  else s

/-- Offset of the mailbox registers and of the data window, and the window's size. -/
def mbRegs : Fn → Nat
  | .pf => 0x0000
  | .vf _ => 0x2000
def mbData : Fn → Nat
  | .pf => 0x1000
  | .vf _ => 0x4000

/-- A ring register of VFp. -/
def State.ringReg (s : State) (p o : Nat) : RegAcc :=
  let r := o / 0x40
  let g := s.ring p r
  match o % 0x40 with
  | 0x00 => some (8, g.base, s)
  | 0x08 => some (8, g.log2 + b2n g.en * 2 ^ 8 + b2n g.err * 2 ^ 9, s)
  | 0x10 => some (8, g.pi, s)
  | 0x18 => some (8, g.ci, s)
  | 0x20 => some (8, if r = 1 || r = 3 then g.lost else 0, s.setRing p r { g with lost := 0 })
  | _ => none

def State.putRingReg (s : State) (p o v : Nat) : State :=
  let r := o / 0x40
  match o % 0x40 with
  | 0x00 => s.ringBase p r v
  | 0x08 => s.ringCfg p r v
  | 0x10 => s.ringPi p r (v % 2 ^ 17)
  | 0x18 => s.ringCi p r (v % 2 ^ 17)
  | _ => s

/-- The registers of BAR0 of function f, but for the data window and the MSI-X table. -/
def State.barReg (s : State) (f : Fn) (o : Nat) : RegAcc :=
  let x := s.mailbox f
  if o = mbRegs f then some (8, x.cmdWord, s)
  else if o = mbRegs f + 8 then some (8, x.statWord, s)
  else if 0xC000 ≤ o && o < 0xC010 && o % 8 = 0 then
    some (8, bitsOf 64 fun i => decide (8 * (o - 0xC000) + i < msixSize (fnKey f)) && (s.msixEnt (fnKey f) (8 * (o - 0xC000) + i)).pend, s)
  else match f with
    | .pf => none
    | .vf p => if o < 0x100 then s.ringReg p.toNat o else none

def State.putBarReg (s : State) (f : Fn) (o v : Nat) : State :=
  let x := s.mailbox f
  if o = mbRegs f then s.putMbCmd f v
  else if o = mbRegs f + 8 then s.setMailbox f { x with done := x.done && !bitOf v 16 }
  else match f with
    | .pf => s
    | .vf p => if o < 0x100 then s.putRingReg p.toNat o v else s

/-- The spindle doorbell that an offset of VFp BAR0 names (R441). -/
def bellOf (f : Fn) (o : Nat) : Option (Nat × Nat) :=
  match f with
  | .vf p => if 0x1000 ≤ o && o < 0x1400 && o % 8 = 0 then some (p.toNat, (o - 0x1000) / 8) else none
  | .pf => none

/-- The host's access of n bytes at offset o of BAR0. -/
def State.barAccess (s : State) (f : Fn) (o n : Nat) (op : BusOp) : Option (List Byte) × State :=
  let aligned := (n = 1 || n = 2 || n = 4 || n = 8) && o % n = 0
  let dead := s.rst.perstLow || s.inReset || (s.node = .fault && !(f = .pf && o < 0x3000))
  let zero : Option (List Byte) := some (match op with | .read => List.replicate n 0 | .write _ => [])
  if dead || !aligned || 0x10000 ≤ o then (none, s)
  else if mbData f ≤ o && o < mbData f + 0x2000 then
    let x := s.mailbox f
    let i := o - mbData f
    match op with
    | .read => (some ((List.range n).map fun j => tabGet 0 x.data (i + j)), s)
    | .write d =>
      let t := (bytesOfNat n d.toNat).foldl (fun a b => (a.1 + 1, tabSet 0 a.2 a.1 b)) (i, x.data)
      (some [], s.setMailbox f { x with data := t.2 })
  else if 0x8000 ≤ o && o < 0x8000 + 16 * msixSize (fnKey f) then
    if n < 4 then (none, s)
    else
      let fn := fnKey f
      let i := (o - 0x8000) / 4
      match op with
      | .read => (some ((List.range (n / 4)).flatMap fun j => bytesOfNat 4 ((s.msixEnt fn ((i + j) / 4)).word ((i + j) % 4))), s)
      | .write d =>
        (some [], (List.range (n / 4)).foldl (fun s j => s.putMsix fn ((i + j) / 4) ((i + j) % 4) (fld d.toNat (32 * j) 32)) s)
  else match bellOf f o, op with
    | some b, .write _ => (some [], s.spindleDoorbell b.1 b.2)
    | some _, .read => (zero, s)
    | none, _ =>
      match s.barReg f o with
      | none => (zero, s)
      | some (w, v, s1) =>
        if w ≠ n then (none, s)
        else match op with
          | .read => (some (bytesOfNat n v), s1)
          | .write d => (some [], s.putBarReg f o (d.toNat % 2 ^ (8 * n)))

end Sys2Proof.Machine
end

