-- ==== Sys2Proof/Machine/Bus.lean ====
section
/-! DEFINITION. Accesses to the device address map (05 Table 5-1): what each master reaches on the control matrix (05 R173, R174,
R178, R188, R199, R203 to R205, Table 5-14), locked sequences (05 R207), the paths of a core (01 R36, 05 R179, 04 R156), and
the commands that write a register or read an RC field. -/

namespace Sys2Proof.Machine
open Sys2Proof

/-- The answer to an access: the bytes a read returns (none of them for a write), or none for an error response; and the state
after. -/
abbrev BusRes : Type := Option (List Byte) × State

/-! ## Byte memories -/

/-- Read or write n bytes at address a of HBM, scratch or a local RAM. -/
def State.memAccess (s : State) (a n : Nat) (op : BusOp) : BusRes :=
  match op with
  | .read => (some (s.bytes a n), s)
  | .write d => (some [], s.poke a (bytesOfNat n d.toNat))

/-- Address a of HBM is served to master m (R188, R199, Table 5-14). -/
def State.matrixHbm (s : State) (m : Master) (a : Nat) (write : Bool) : Bool :=
  let reserved := decide (0x0017FC000000 ≤ a)
  match m with
  | .distaff _ => !s.pcRetired a
  | .dbg => !s.pcRetired a && (if reserved then !write else !s.sealedOwner (s.granOwner (a / 2 ^ 26)))
  | _ => match s.masterPart m with
    | some p => s.hbmServes a p
    | none => false

/-- Hank n is served to master m through the hoop bridge (Table 5-4, R179). -/
def State.bridgeServes (s : State) (m : Master) (n : Nat) : Bool :=
  let h := s.hank n
  h.serving && (match m with
    | .distaff _ => h.owner = 17 || h.owner = 31
    | .dbg => h.owner = 17 || h.owner = 31
    | .pcie _ => h.owner = 17
    | _ => false)

/-! ## The context store (06 R232 to R237) -/

def ctxStoreBase : Nat := 0x011000000000

/-- An access of n bytes at offset o that the context store and the pool view accept: a power of two up to 64, naturally
aligned (DESIGN CHOICE: 06 gives their 64-byte and smaller accesses and no other sizes or alignments; 08 R284). -/
def wordAligned (o n : Nat) : Bool := (n = 1 || n = 2 || n = 4 || n = 8 || n = 16 || n = 32 || n = 64) && o % n = 0

/-- Master m may access entry e. An HC port reads the contexts of its own partition's streams; the debug port reaches no context
or pricking of a partition in M4 (R205). -/
def State.entryReach (s : State) (m : Master) (e : Nat) (write : Bool) : Bool :=
  let x := s.entry e
  let owned (p : Nat) : Bool := s.isContext e && ctxState x ≠ stFree && ctxPart x = p
  match m with
  | .distaff _ => true
  | .dbg => !(if s.isContext e then ctxState x ≠ stFree && s.sealedOwner (ctxPart x)
      else prValid x && s.sealedOwner (prPart x))
  | .hc k => !write && (match s.partOf k.toNat with | some p => owned p | none => false)
  | _ => false

/-- An access of n bytes at offset o within entry e. -/
def State.entryAccess (s : State) (m : Master) (e o n : Nat) (op : BusOp) : BusRes :=
  let x := (s.entry e).toNat
  if !wordAligned o n then (none, s)
  else match op with
  | .read => if s.entryReach m e false then (some (bytesOfNat n (fld x (8 * o) (8 * n))), s) else (none, s)
  | .write d =>
    if s.entryReach m e true then (some [], s.setEntry e (BitVec.ofNat 512 (setFld x (8 * o) (8 * n) d.toNat))) else (none, s)

/-! ## The bobbin pool view (06 R210, Table 6-1) -/

/-- A list of items in the pool: the queue they belong to or will belong to, whether they are staged, and how many are held. -/
structure CellList where
  queue : Nat
  staged : Bool
  held : Nat
  items : List QItem

/-- Items staged by the skeins of a dispatcher. -/
def Disp.stagedLists (d : Disp) (s : State) : List CellList :=
  let one (x : Skein) : CellList := ⟨ctxOutq (s.entry x.ctx), true, 0, x.staged⟩
  (match d.running with | some x => [one x] | none => []) ++ d.saved.map fun p => one p.2

/-- Every list of items: those of the queues, of parked commits, and of the skeins that stage them. A parked commit is not made
yet, so its items are staged (06 R222). -/
def State.cellLists (s : State) : List CellList :=
  (s.qe.queues.flatMap fun e => ⟨e.1, false, e.2.heldN, e.2.items⟩ ::
    match e.2.parked with | some p => [⟨e.1, true, 0, p.items⟩] | none => []) ++
    s.disps.flatMap fun e => e.2.stagedLists s

/-- The list that holds cell c, and the place in it. -/
def findList (c : Nat) : List CellList → Option (CellList × Nat)
  | [] => none
  | x :: r => match x.items.findIdx? fun i => i.isIn c with
    | some i => some (x, i)
    | none => findList c r

/-- The 64 data bytes of the cell of item i of a list; the NEXT field of the last item is open. A link word written through
the view reads back until the engine writes it again (DESIGN CHOICE: Table 6-1 gives the word and not what a write of it
through the view does to the list, which stays as it is). -/
def State.cellWord (s : State) (x : CellList) (i : Nat) : Nat :=
  match x.items[i]? with
  | none => 0
  | some it =>
    let next := match x.items[i + 1]? with
      | some y => y.cell
      | none => (Config.freeWord s.clock.free).toNat % 2 ^ 19
    let link := match it.link with
      | some w => w.toNat
      | none => next + it.len % 64 * 2 ^ 19 + b2n x.staged * 2 ^ 25 + b2n (decide (i < x.held)) * 2 ^ 26 + x.queue * 2 ^ 32 +
          it.status.toNat * 2 ^ 48
    link + it.payload.toNat * 2 ^ 64

/-- The item with the words of its cell replaced by a write at offset o. -/
def QItem.put (it : QItem) (o w : Nat) : QItem :=
  { it with
    len := fld w 19 6
    status := BitVec.ofNat 16 (fld w 48 16)
    payload := BitVec.ofNat 448 (fld w 64 448)
    link := if o < 8 then some (BitVec.ofNat 64 w) else it.link }

/-- Replace the item of cell c, wherever it is. -/
def State.mapCell (s : State) (c : Nat) (g : QItem → QItem) : State :=
  let one (l : List QItem) : List QItem := l.map fun i => if i.isIn c then g i else i
  let skein (x : Skein) : Skein := { x with staged := one x.staged }
  { s with
    qe := { s.qe with queues := tabMap {} (fun x => { x with
      items := one x.items
      parked := x.parked.map fun p => { p with items := one p.items } }) s.qe.queues }
    disps := tabMap {} (fun d => { d with
      running := d.running.map skein
      saved := d.saved.map fun p => (p.1, skein p.2) }) s.disps }

/-- Cell c holds an item of a queue of a partition in M4, which the debug port does not reach (R205). -/
def State.cellSealed (s : State) (c : Nat) : Bool :=
  match findList c s.cellLists with
  | some (x, _) => s.sealedOwner (s.queue x.queue).owner.toNat
  | none => false

/-- An access of n bytes at offset o of cell c. A cell that holds no item keeps what was last written through the view. -/
def State.cellAccess (s : State) (c o n : Nat) (op : BusOp) : BusRes :=
  if !wordAligned o n then (none, s)
  else match findList c s.cellLists with
  | none => s.memAccess (poolBase + 64 * c + o) n op
  | some (x, i) =>
    let w := s.cellWord x i
    let s := s.fresh.2
    match op with
    | .read => (some (bytesOfNat n (fld w (8 * o) (8 * n))), s)
    | .write d => (some [], s.mapCell c fun it => it.put o (setFld w (8 * o) (8 * n) d.toNat))

/-- A write of the pool view is a write of its granule (08 R286). -/
def State.poolAccess (s : State) (c o n : Nat) (op : BusOp) : BusRes :=
  let r := s.cellAccess c o n op
  match op with
  | .read => r
  | .write _ => (r.1, { r.2 with cores := clearResv r.2.cores (poolBase + 64 * c + o) n })

/-! ## Queue windows (06 R224, Table 6-4) -/

/-- The operation an access of n bytes at offset o of a window makes: none for one the table does not list. chk: what the check
bits of the cells it reads say. -/
def windowQOp (m : Master) (o n : Nat) (op : BusOp) (chk : CellCheck) : Option QOp :=
  match op with
  | .read => if o = 0x040 && n = 64 then some (.pop chk) else if o = 0x180 && n = 8 then some .status else none
  | .write d =>
    if o = 0x000 && n = 64 then some (.push (pushClass m) (heldItem (d.setWidth 512)) (recCont (d.setWidth 512)))
    else if n ≠ 8 then none
    else if o = 0x080 then some .mark
    else if o = 0x0C0 then some .rewind
    else if o = 0x100 then some (.release (fld d.toNat 0 20) chk.link)
    else if o = 0x140 then some (.flush chk.link)
    else none

/-- An access at offset o of the window of queue q. An operation that a scrub of the region holds has no answer yet. -/
def State.queueAccess (s : State) (m : Master) (q o n : Nat) (op : BusOp) (chk : CellCheck) : BusRes :=
  if !s.reachesQueue m q then (none, s)
  else if 0x1C0 ≤ o then (some (match op with | .read => List.replicate n 0 | .write _ => []), s)
  else match windowQOp m o n op chk with
    | none => (none, s)
    | some x =>
      let s1 := s.windowOp m q x fun s => s.queueOp q x
      match s1.resp with
      | .data l => (some l, s1)
      | _ => (some [], s1)

/-! ## Local windows (05 R174) -/

def windowBase : Nat := 0x014000000000

/-- Distaff core c runs at level M, which its accesses to the local windows need (12 R354). -/
def State.atM (s : State) (c : BitVec 2) : Bool := (s.cpu (128 + c.toNat)).pl = 3

/-- An access at offset o of window w. The debug port reaches no position of a partition in M4, and a distaff core below M
reaches no window (12 R354). -/
def State.windowAccess (s : State) (m : Master) (w o n : Nat) (op : BusOp) : BusRes :=
  let sealed := match s.logOf w with | some k => s.inM4 k | none => false
  match m with
  | .distaff c =>
      if !s.atM c then (none, s)
      else if o < 0x20000 then s.memAccess (windowBase + w * 0x40000 + o) n op
      else if o < 0x30000 then s.csrAccess w o n op
      else (some (match op with | .read => List.replicate n 0 | .write _ => []), s)
  | .dbg =>
    if sealed then (none, s)
    else if o < 0x20000 then s.memAccess (windowBase + w * 0x40000 + o) n op
    else if o < 0x30000 then s.csrAccess w o n op
    else (some (match op with | .read => List.replicate n 0 | .write _ => []), s)
  | _ => (none, s)

/-! ## Host memory window (05 Table 5-14, 15 R430) -/

/-- A distaff core's host access takes the PF, and reads through the cache of CXL.cache; a shuttle's takes the VF of its
spindle's partition, and a channel of no partition does not reach the window (13 R385). -/
def State.hostAccess (s : State) (m : Master) (a n : Nat) (op : BusOp) : BusRes :=
  let go (fn : Nat) : BusRes :=
    match op with
    | .read => let r := s.hostRead fn (a - hostWindow) n true
      (some r.1, r.2)
    | .write d => (some [], s.hostPut fn (a - hostWindow) (bytesOfNat n d.toNat))
  if s.rst.perstLow then (none, s)
  else match m with
    | .distaff _ => go 16
    | .hs k => if (s.partOf k.toNat).isSome then go (s.shFn k.toNat) else (none, s)
    | _ => (none, s)

/-! ## The control matrix (R203 to R206) -/

/-- The lockable target that holds address a. -/
def lockTargetOf (a : Nat) : Option LockTarget :=
  if ctxStoreBase ≤ a && a < ctxStoreBase + 0x1000000 then some .contextStore
  else if poolBase ≤ a && a < poolBase + 0x2000000 then some .poolView
  else none

/-- Another master holds a lock on the target at address a: the access waits (R207). -/
def State.lockedOut (s : State) (m : Master) (a : Nat) : Bool :=
  match lockTargetOf a with
  | some t => (match s.lockHolder t with | some l => l.master ≠ m | none => false)
  | none => false

def isWrite : BusOp → Bool
  | .read => false
  | .write _ => true

/-- A PCIe request reaches the device: the endpoint is out of reset and the device is not in FAULT (17 R504). -/
def State.pcieServed (s : State) (m : Master) : Bool :=
  match m with
  | .pcie _ => !s.rst.perstLow && s.node ≠ .fault
  | _ => true

/-- The largest beat of a master's layer (R204). -/
def beatMax : Master → Nat
  | .hs _ => 256
  | _ => 64

/-- One access of n bytes, one beat at most, at address a by master m. chk: what the check bits of a popped cell say. -/
def State.busAccess (s : State) (m : Master) (a n : Nat) (op : BusOp) (chk : CellCheck := .ok) : BusRes :=
  let last := a + n - 1
  if n = 0 || beatMax m < n || !s.pcieServed m then (none, s)
  else if last < 0x001800000000 then
    if s.matrixHbm m a (isWrite op) && s.matrixHbm m last (isWrite op) then s.memAccess a n op else (none, s)
  else if 0x010000000000 ≤ a && last < 0x010010000000 then
    if s.bridgeServes m ((a - 0x010000000000) / 0x400000) && s.bridgeServes m ((last - 0x010000000000) / 0x400000) then
      s.memAccess a n op
    else (none, s)
  else if ctxStoreBase ≤ a && last < ctxStoreBase + 0x1000000 then
    if a / 64 ≠ last / 64 then (none, s) else s.entryAccess m ((a - ctxStoreBase) / 64) (a % 64) n op
  else if 0x012000000000 ≤ a && last < 0x012002000000 then
    s.queueAccess m ((a - 0x012000000000) / 0x200) (a % 0x200) n op chk
  else if poolBase ≤ a && last < poolBase + 0x2000000 then
    match m with
    | .distaff _ => if a / 64 ≠ last / 64 then (none, s) else s.poolAccess ((a - poolBase) / 64) (a % 64) n op
    | .dbg => if a / 64 ≠ last / 64 || s.cellSealed ((a - poolBase) / 64) then (none, s) else s.poolAccess ((a - poolBase) / 64) (a % 64) n op
    | _ => (none, s)
  else if windowBase ≤ a && last < windowBase + 144 * 0x40000 then
    s.windowAccess m ((a - windowBase) / 0x40000) ((a - windowBase) % 0x40000) n op
  else if 0x01F000000000 ≤ a && last < 0x01F001000000 then s.regAccess m (a - 0x01F000000000) n op
  else if hostWindow ≤ a && last < 2 ^ 48 then s.hostAccess m a n op
  else (none, s)

/-- An access that a function of the endpoint refuses is an Unsupported Request, which its AER logs (15 R427; bit 20 is PCI
Express's:
PRESUMED, log entry 160). r: the answer to master m. -/
def aerLog (m : Master) (r : BusRes) : BusRes :=
  match m, r with
  | .pcie f, (none, s) =>
    (none, if s.rst.perstLow then s else { s with aer := tabSet 0 s.aer (fnKey f) (tabGet 0 s.aer (fnKey f) ||| 2 ^ 20) })
  | _, r => r

/-- The answer to a master outside the cores is kept. -/
def busAnswer (r : BusRes) : State :=
  match r.1 with
  | some [] => r.2.answer .none
  | some l => r.2.answer (.data l)
  | none => r.2.answer .error

/-- An HC or HS access to HBM travels on its spindle's links and is served in its octets; every other master's is served by
Throughput service (R195, R205). -/
def State.hbmReady (s : State) (m : Master) (a n : Nat) : Bool :=
  match m with
  | .hc k => s.hbmNow k.toNat a n
  | .hs k => s.hbmNow k.toNat a n
  | _ => s.matrixNow a n

def inCtxStore (a : Nat) : Bool := decide (ctxStoreBase ≤ a) && decide (a < ctxStoreBase + 0x1000000)

/-- The data at a has check bits that a read reports: scratch, HBM and the context store. -/
def isChecked (a : Nat) : Bool := isHbm a || isScratch a || inCtxStore a

/-- What the check bits of data read at a change. -/
def State.readCheck (s : State) (a : Nat) (chk : DataCheck) : State :=
  if inCtxStore a then
    (match chk with
      | .ok => s
      | .corrected => s.storeCe
      | .uncorrectable => s.entryUe ((a - ctxStoreBase) / 64))
  else s.memCheck a chk

/-- What the check bits of the data of an access say (05 R177, R189, 06 R236): a corrected read counts; an uncorrectable one is
reported, and the access ends with an error response (DESIGN CHOICE for the context store: R236 gives the report and the effect
on the stream, and not what the reading master receives). -/
def State.checkedAccess (s : State) (m : Master) (a n : Nat) (op : BusOp) (chk : DataCheck) (cell : CellCheck := .ok) : State :=
  let r := aerLog m (s.busAccess m a n op cell)
  match op, r.1 with
  | .read, some l =>
    if isChecked a then (r.2.readCheck a chk).answer (if chk = .uncorrectable then .error else .data l) else busAnswer r
  | _, _ => busAnswer r

/-- MATRIX_ACCESS: the access is served in its slot; nothing is while the device is held in reset, and the access waits while
another master holds the target locked, and at HBM until the request is served. -/
def execMatrixAccess (m : Master) (addr : DWord) (size : BitVec 9) (op : Checked BusOp AccessCheck) (s : State) :
    Host.Outcome State Fault Refusal :=
  let a := addr.toNat
  .next (if s.inReset || s.lockedOut m a then s
    else if isHbm a && (s.busAccess m a size.toNat op.val).1.isSome && !s.hbmReady m a size.toNat then s
    else s.checkedAccess m a size.toNat op.val op.chk.data op.chk.cell)

/-! ## Locked sequences (R207, R208) -/

/-- The target accepts a new lock: none is held and 40 cycles have passed since the last. -/
def State.lockFree (s : State) (t : LockTarget) : Bool :=
  (match (s.lockState t).held with | some l => decide (l.start + lockLimit + lockGap ≤ s.clock.u) | none => true) &&
    (match (s.lockState t).ended with | some e => decide (e + lockGap ≤ s.clock.u) | none => true)

/-- A master that may lock: a D or an HC port, no spindle of a partition in M4 (R207, 07 R254). -/
def State.mayLock (s : State) (m : Master) : Bool :=
  match m with
  | .distaff _ => true
  | .hc k => !s.inM4 k.toNat
  | _ => false

/-- The lock after beat number done + 1 of master m in a sequence begun at start, with left beats to make, this one among
them: it ends at the last or the sixteenth. -/
def State.lockBeat (s : State) (t : LockTarget) (m : Master) (start done left : Nat) : State :=
  if left ≤ 1 || 15 ≤ done then s.setLock t { s.lockState t with held := none, ended := some s.clock.u }
  else s.setLock t { s.lockState t with held := some ⟨m, done + 1, left - 1, start⟩ }

/-- A remaining beat of a broken sequence of master m gets its lock-break response; none when it has no such beat. -/
def State.brokenBeat (s : State) (t : LockTarget) (m : Master) : Option State :=
  let l := (s.lockState t).broken
  let rest := l.filter fun b => b.1 ≠ m
  match l.find? fun b => b.1 = m with
  | some (_, n + 1) =>
    some ((s.setLock t { s.lockState t with broken := if n = 0 then rest else (m, n) :: rest }).answer .lockBreak)
  | _ => none

/-- One beat of 64 bytes of a locked sequence, with left beats to make, this one among them. -/
def State.lockedBeat (s : State) (m : Master) (a left : Nat) (op : BusOp) (chk : DataCheck) : State :=
  let a := a / 64 * 64
  match lockTargetOf a with
  | none => s.answer .error
  | some t =>
    if !s.mayLock m then s.answer .error
    else
      let s := if (s.lockHolder t).isNone then s.endLock t else s
      match s.brokenBeat t m with
      | some s => s
      | none =>
        let go := s.checkedAccess m a 64 op chk
        match (s.lockState t).held with
        | some l => if l.master = m then go.lockBeat t m l.start l.beats left else s
        | none => if s.lockFree t then go.lockBeat t m s.clock.u 0 left else go

def execLockedSequence (m : Master) (addr : DWord) (beats : BitVec 5) (op : Checked BusOp DataCheck) (s : State) :
    Host.Outcome State Fault Refusal :=
  .next (if s.inReset then s else s.lockedBeat m addr.toNat beats.toNat op.val op.chk)

/-! ## Register commands (00 R15, R17) -/

/-- The address lies in the register space or among the CSRs of a local window. -/
def isRegister (a : Nat) : Bool :=
  (decide (0x01F000000000 ≤ a) && decide (a < 0x01F001000000)) ||
    (decide (windowBase ≤ a) && decide (a < windowBase + 144 * 0x40000) && decide (0x20000 ≤ (a - windowBase) % 0x40000))

/-- The address by which a PCIe function's command names the Message Control word of its MSI-X capability, in its configuration
space
(DESIGN CHOICE, log entry 149: the manual gives the capability and no device address). -/
def msixControlAt : Nat := 2 ^ 63

/-- Message Control of function f: a 16-bit register (15 R429, 12 R383). -/
def State.controlAccess (s : State) (f : Fn) (n : Nat) (op : BusOp) : BusRes :=
  if n ≠ 2 || s.rst.perstLow then (none, s)
  else match op with
    | .read => (some (bytesOfNat 2 (s.msixControl (fnKey f))), s)
    | .write d => (some [], s.putMsixControl (fnKey f) d.toNat)

/-- PF BAR4, the CXL component registers (15 Table 15-2), whose contents the manual does not give: a read returns open values, and a
write changes nothing the model holds (DESIGN CHOICE, log entry 150). -/
def State.componentAccess (s : State) (n : Nat) (op : BusOp) : BusRes :=
  if !(n = 1 || n = 2 || n = 4 || n = 8) || s.rst.perstLow || s.node = .fault then (none, s)
  else match op with
    | .read => (some (bytesOfNat n (Config.freeWord s.clock.free).toNat), s.fresh.2)
    | .write _ => (some [], s)

/-- A register access by master m: a PCIe function names its own BAR0 below 64 KiB, the PF its BAR4 in the 64 KiB above, and each
function its Message Control word. -/
def State.registerOp (s : State) (m : Master) (a n : Nat) (op : BusOp) : BusRes :=
  match m with
  | .pcie f =>
    if a < 0x10000 then s.barAccess f a n op
    else if a = msixControlAt then s.controlAccess f n op
    else if f = .pf && a < 0x20000 then s.componentAccess n op
    else if isRegister a then s.busAccess m a n op else (none, s)
  | _ => if isRegister a then s.busAccess m a n op else (none, s)

/-- The width of the register at address a, as master m names it; 8 where there is none. -/
def State.regWidth (s : State) (m : Master) (a : Nat) : Nat :=
  let acc : RegAcc :=
    match m with
    | .pcie f => if a < 0x10000 then s.barReg f a else if a < 0x01F000000000 || a = msixControlAt then none else s.regAt (a - 0x01F000000000)
    | _ =>
      if 0x01F000000000 ≤ a then s.regAt (a - 0x01F000000000)
      else s.csrReg ((a - windowBase) / 0x40000) ((a - windowBase) % 0x40000)
  match acc with
  | some r => r.1
  | none => if a = msixControlAt then 2 else if a % 8 = 0 then 8 else 4

/-- RC_FIELD_READ: a read of a register in its own width; RC fields clear (R17). -/
def execRcFieldRead (m : Master) (addr : DWord) (s : State) : Host.Outcome State Fault Refusal :=
  .next (if s.inReset then s else busAnswer (aerLog m (s.registerOp m addr.toNat (s.regWidth m addr.toNat) .read)))

/-- REGISTER_WRITE: each field acts by its type (Table 0-5). -/
def execRegisterWrite (m : Master) (addr : DWord) (size : BitVec 7) (v : DWord) (s : State) :
    Host.Outcome State Fault Refusal :=
  .next (if s.inReset then s else busAnswer (aerLog m (s.registerOp m addr.toNat size.toNat (.write (v.setWidth 2048)))))

/-! ## The paths of a core (01 R36, 05 R179) -/

/-- How an access of a core stands: served, not yet, or refused. -/
inductive Reach where
  | ok
  /-- it waits for a fabric cycle that the hank does not give (04 R156), for a lock to end, or for a region scrub (06 R215) -/
  | wait
  | err
deriving DecidableEq, Repr

/-- A spindle controller's access to a hank (Table 5-4, R156, R202). -/
def State.spindleHank (s : State) (k n : Nat) : Reach :=
  let h := s.hank n
  if s.partOf k = some h.owner.toNat && n / 4 ≠ k / 8 && h.fabPending then .wait
  else if !h.serving || s.partOf k ≠ some h.owner.toNat then .err
  else if n / 4 = k / 8 || (h.faben && h.fabhoop.toNat = k / 8) then .ok
  else .wait

def Reach.both : Reach → Reach → Reach
  | .err, _ => .err
  | _, .err => .err
  | .wait, _ => .wait
  | _, .wait => .wait
  | .ok, .ok => .ok

/-- The master port that core k's control-matrix accesses take. -/
def coreMaster (k : Nat) : Master := if 128 ≤ k then .distaff (BitVec.ofNat 2 (k - 128)) else .hc (BitVec.ofNat 7 k)

/-- Spindle k reaches HBM at a, an access of n bytes (R188, R205). -/
def State.ownHbm (s : State) (k a n : Nat) : Bool :=
  match s.partOf k with
  | some p => s.hbmServes a p && s.hbmServes (a + n - 1) p
  | none => false

/-- A device address that a spindle controller reaches through its own HBM links. -/
def isOwnHbm (k a n : Nat) : Bool := decide (k < 128) && decide (a + n ≤ 0x001800000000)

/-- Core k's access of n bytes at device address a, but for what only the target itself can answer. An access to HBM waits
until it is served: a spindle's in its octets (R193), a distaff core's by Throughput service (R195). -/
def State.coreReach (s : State) (k a n : Nat) : Reach :=
  let last := a + n - 1
  let held := decide (0x012000000000 ≤ a) && decide (a < 0x012002000000) && s.regionHolds ((a - 0x012000000000) / 0x200)
  if s.lockedOut (coreMaster k) a || held then .wait
  else if 128 ≤ k then (if isHbm last && !s.matrixNow a n then .wait else .ok)
  else if isOwnHbm k a n then
    (if !s.ownHbm k a n then .err else if s.hbmNow k a n then .ok else .wait)
  else if 0x010000000000 ≤ a && last < 0x010010000000 then
    (s.spindleHank k ((a - 0x010000000000) / 0x400000)).both (s.spindleHank k ((last - 0x010000000000) / 0x400000))
  else .ok

/-- What the check bits of the cell say that an access at a through a queue window reads: a free choice (log entry 40). -/
def State.freeCell (s : State) (a : Nat) : CellCheck × State :=
  if 0x012000000000 ≤ a && a < 0x012002000000 then
    let r := s.fresh
    (⟨bvFld r.1 0 4, bvFld r.1 4 3, r.1.getLsbD 7⟩, r.2)
  else (.ok, s)

/-- Core k's device access: own HBM links and hanks for a spindle controller, the control matrix for everything else. -/
def State.coreAccess (s : State) (k a n : Nat) (op : BusOp) : BusRes :=
  if isOwnHbm k a n then
    (match s.coreReach k a n with
      | .ok => (s.useOctets k a n).memAccess a n op
      | _ => (none, s))
  else if k < 128 && isScratch a && a + n ≤ 0x010010000000 then
    (match s.coreReach k a n with
      | .ok => s.memAccess a n op
      | _ => (none, s))
  else
    let f := s.freeCell a
    let r := f.2.busAccess (coreMaster k) a n op f.1
    (r.1, { r.2 with resp := s.resp })

end Sys2Proof.Machine
end

