-- ==== Sys2Proof/Machine/Operands.lean ====
section
/-! DEFINITION. The operand forms of Parsal's data accesses: segment and offset (08 R269, R271, R284, R296, Table 8-4), the store
buffer of the core-local memories (09 R310, R311), and one element read or written in place (08 R287, 03 R148). -/

namespace Sys2Proof.Machine
open Sys2Proof

/-! ## Segments (R271) -/

/-- ECAUSE.ACC (12 Table 12-3). -/
def accLoad : Nat := 1
def accStore : Nat := 2
def accAtomic : Nat := 3

/-- The address of offset e in segment n. -/
def Cpu.segAddr (c : Cpu) (n : SegId) (e : DWord) : DWord := tabGet 0 c.sgb n.toNat + e

/-- Segment Limit or Write Protect, if one applies to an access of n bytes at offset e. -/
def Cpu.segFault (c : Cpu) (seg : SegId) (e : DWord) (n : Nat) (rd wr : Bool) : Option Nat :=
  let l := (tabGet 0 c.sgl seg.toNat).toNat
  if (rd && !bitOf l 48) || decide (fld l 0 48 < e.toNat + n - 1) then some 5
  else if wr && !bitOf l 49 then some 6
  else none

/-- Where an access goes. -/
inductive Place where
  /-- a core-local memory: the key of its first byte, and whether it is the data RAM -/
  | loc (key : Nat) (dataRam : Bool)
  | dev (a : Nat)
deriving DecidableEq, Repr

/-- The one range of Table 8-4 that holds the n bytes at a, for core k: none raises Bus Error. -/
def State.place (s : State) (k : Nat) (a : DWord) (n : Nat) : Option Place :=
  let x := a.toNat
  let last := x + n - 1
  if last < 2 ^ 48 then some (.dev x)
  else if 0x8000000000000000 ≤ x && last < 0x8000000000010000 then some (.loc (s.localKey k + (x - 0x8000000000000000)) false)
  else if 0x8000000000010000 ≤ x && last < 0x8000000000020000 then some (.loc (s.localKey k + (x - 0x8000000000000000)) true)
  else none

/-- Register plus displacement. -/
def Cpu.offset (c : Cpu) (rs1 : RegId) (disp : Int) : DWord := c.get rs1 + BitVec.ofInt 64 disp

/-! ## The store buffer (09 R310, R311) -/

def StoreEnt.overlaps (e : StoreEnt) (a n : Nat) : Bool := decide (e.addr < a + n) && decide (a < e.addr + e.data.length)

/-- The bytes of an entry that wholly contains the access. -/
def StoreEnt.cover (e : StoreEnt) (a n : Nat) : Option (List Byte) :=
  if e.addr ≤ a && a + n ≤ e.addr + e.data.length then some ((e.data.drop (a - e.addr)).take n) else none

/-- What the check of R311 says. -/
inductive BufHit where
  | none
  | forward (l : List Byte)
  | stall
deriving DecidableEq, Repr

/-- The check of a core-local load of n bytes: the youngest overlapping entry decides. -/
def Core.bufCheck (c : Core) (a n : Nat) : BufHit :=
  match (c.storeBuf.filter fun e => e.overlaps a n).getLast? with
  | Option.none => .none
  | some e => match e.cover a n with
    | some l => .forward l
    | Option.none => .stall

/-- No entry overlaps. -/
def Core.bufClear (c : Core) (a n : Nat) : Bool := c.storeBuf.all fun e => !e.overlaps a n

/-- The entries a store makes: two when it crosses an 8-byte boundary. -/
def storeEnts (a : Nat) (l : List Byte) : List StoreEnt :=
  let m := 8 - a % 8
  if l.length ≤ m then [⟨a, l⟩] else [⟨a, l.take m⟩, ⟨a + m, l.drop m⟩]

/-- Stores of a short-vector instruction enter the buffer in order; where it is full the oldest entries write (R310). -/
def State.bufPut (s : State) (k : Nat) (l : List StoreEnt) : State :=
  let b := (s.core k).storeBuf ++ l
  let s := (b.take (b.length - 4)).foldl (fun s e => s.poke e.addr e.data) s
  s.modCore k fun c => { c with storeBuf := b.drop (b.length - 4) }

/-! ## One element in place -/

/-- How an element access ends. -/
inductive Elem (α : Type) where
  | done (v : α) (s : State)
  | wait
  /-- exception code and EADDR, and the state it is raised in -/
  | fault (code : Nat) (a : DWord) (s : State)

/-- Read n bytes at offset e of segment seg. wr: the access also writes (TAS). chk: what the check bits of its data say. -/
def State.elemRead (s : State) (k : Nat) (seg : SegId) (e : DWord) (n : Nat) (wr : Bool) (chk : DataCheck) (back : Nat := 0)
    (len : Nat := n) : Elem Nat :=
  let c := s.cpu k
  let a := c.segAddr seg e
  match c.segFault seg e n true wr with
  | some code => .fault code a s
  | none => match s.place k a n with
    | none => .fault 7 a s
    | some (.loc key _) => match (s.core k).bufCheck (key - back) len with
      | .none => .done (natOfBytes (s.bytes key n)) s
      | .forward l => .done (natOfBytes ((l.drop back).take n)) s
      | .stall => .wait
    | some (.dev x) => match s.coreReach k x n with
      | .wait => .wait
      | .err => .fault 7 a s
      | .ok => match s.coreAccess k x n .read with
        | (some l, s1) =>
          if !isChecked x then .done (natOfBytes l) s1
          else if chk = .uncorrectable then .fault 7 a (s1.readCheck x chk)
          else .done (natOfBytes l) (s1.readCheck x chk)
        | (none, _) => .fault 7 a s

/-- Write n bytes at offset e of segment seg; an error response is taken at the element. buffered: a write of a core-local
memory goes through the store buffer. -/
def State.elemWrite (s : State) (k : Nat) (seg : SegId) (e : DWord) (n v : Nat) (buffered : Bool := false) : Elem Unit :=
  let c := s.cpu k
  let a := c.segAddr seg e
  match c.segFault seg e n false true with
  | some code => .fault code a s
  | none => match s.place k a n with
    | none => .fault 7 a s
    | some (.loc key _) =>
      if buffered then .done () (s.bufPut k (storeEnts key (bytesOfNat n v)))
      else if (s.core k).bufClear key n then .done () (s.poke key (bytesOfNat n v)) else .wait
    | some (.dev x) => match s.coreReach k x n with
      | .wait => .wait
      | .err => .fault 7 a s
      | .ok => match s.coreAccess k x n (.write (BitVec.ofNat 2048 v)) with
        | (some _, s1) => .done () s1
        | (none, _) => .fault 7 a s

/-- What an element access meets before anything is accessed (08 R271, 09 R312): its exception code. -/
def State.elemCheck (s : State) (k : Nat) (seg : SegId) (e : DWord) (n : Nat) (rd wr : Bool) : Option Nat :=
  let a := (s.cpu k).segAddr seg e
  match (s.cpu k).segFault seg e n rd wr with
  | some code => some code
  | none => match s.place k a n with
    | none => some 7
    | some (.loc _ _) => none
    | some (.dev x) => match s.coreReach k x n with
      | .err => some 7
      | _ => none

/-- The exception of the instruction at PC for a data access at a. -/
def State.dataFault (s : State) (k code : Nat) (a : DWord) (acc : Nat) : State := s.takeException k code (s.pc k) a acc

end Sys2Proof.Machine
end

