-- ==== Sys2Proof/Machine/ParsalMem.lean ====
section
/-! DEFINITION. Loads, stores, atomics and short-vector memory instructions, the store buffer's writes, device load returns, the
imprecise Bus Error and instruction cache refills (03 R147, R148, 08 R284 to R286, R296, 09 R307, R310 to R312, 12 R362). -/

namespace Sys2Proof.Machine
open Sys2Proof

/-! ## LD and ST (R284) -/

def stSize : StOp → Nat
  | .b => 1
  | .h => 2
  | .w => 4
  | .d => 8

/-- Requests of core k's own for the HBM units of n bytes at a; a store's carry its bytes (05 R193). -/
def State.coreRequests (s : State) (k a n : Nat) (write : Bool) (data : List Byte) : State :=
  (unitsOf a n).foldl (fun s u =>
    s.addReq k {
      src := .core
      ctx := s.vCtx k
      block := u
      write := write
      data := ((List.range n).zip data).filterMap fun p => if (a + p.1) / 256 = u then some (a + p.1, p.2) else none }) s

/-- The spindle's entries have room for an access of n bytes at a (04 R163). -/
def State.entryRoom (s : State) (k a n : Nat) : Bool := decide ((s.reqs k).length + (unitsOf a n).length ≤ 32)

/-- A device load leaves: its response is on the way. From HBM a spindle's takes a request entry for each unit, and the data
comes as they are served; chk: what the check bits of other data say. -/
def State.sendLoad (s : State) (k : Nat) (op : LdOp) (rd : RegId) (a : DWord) (chk : DataCheck) : State :=
  let x := a.toNat
  let n := ldSize op
  let out (resp : Option Nat) (waits : Nat) (s : State) : State :=
    s.modCpu k fun c => { c with outLoad := some { op := op, rd := rd, addr := a, resp := resp, waits := waits } }
  if isOwnHbm k x n then
    if !s.ownHbm k x n then out none 0 s
    else if s.entryRoom k x n then out (some 0) (unitsOf x n).length (s.coreRequests k x n false [])
    else s
  else match s.coreReach k x n with
    | .wait => s
    | _ =>
      let r := s.coreAccess k x n .read
      let bad := chk = .uncorrectable && isChecked x
      out (if bad then none else r.1.map natOfBytes) 0 (if r.1.isSome && isChecked x then r.2.readCheck x chk else r.2)

def State.loadOp (s : State) (k : Nat) (op : LdOp) (rd : RegId) (seg : SegId) (e : DWord) (chk : DataCheck) : State :=
  let c := s.cpu k
  let n := ldSize op
  let a := c.segAddr seg e
  match c.segFault seg e n true false with
  | some code => s.dataFault k code a accLoad
  | none => match s.place k a n with
    | none => s.dataFault k 7 a accLoad
    | some (.loc key _) => match (s.core k).bufCheck key n with
      | .none => s.result k rd (ldValue op (natOfBytes (s.bytes key n)))
      | .forward l => s.result k rd (ldValue op (natOfBytes l))
      | .stall => s
    | some (.dev _) => s.sendLoad k op rd a chk

def execLd (c : CoreId) (op : LdOp) (rd rs1 : RegId) (seg : SegId) (off : BitVec 13) (chk : DataCheck) (s : State) :
    Host.Outcome State Fault Refusal :=
  .next (s.issue c [rd, rs1] fun s => s.loadOp c op rd seg ((s.cpu c).offset rs1 off.toInt) chk)

/-- DEVICE_LOAD_RETURN (R312): once every HBM unit it waits for has come, the data lands, or an error response raises Bus Error
at the load. -/
def State.loadReturn (s : State) (k : Nat) : State :=
  match (s.cpu k).outLoad with
  | none => s
  | some o =>
    if o.waits ≠ 0 then s
    else match o.resp with
      | some _ => s.modCpu k Cpu.landLoad
      | none => (s.modCpu k fun c => { c with outLoad := none }).dataFault k 7 o.addr accLoad

def execDeviceLoadReturn (c : CoreId) (s : State) : Host.Outcome State Fault Refusal := .next (s.loadReturn c)

/-- Posted device store (R312): an error response comes later, as an imprecise Bus Error (12 R362). A spindle's store to HBM is
posted when its request entries are taken, and lands when they are served. -/
def State.postStore (s : State) (k : Nat) (a : DWord) (n v : Nat) : State :=
  let x := a.toNat
  let fail (s : State) : State := s.modCore k fun c => { c with failed := c.failed ++ [a] }
  if isOwnHbm k x n then
    if !s.ownHbm k x n then (fail s).advance k
    else if s.entryRoom k x n then (s.coreRequests k x n true (bytesOfNat n v)).advance k
    else s
  else match s.coreReach k x n with
    | .wait => s
    | _ =>
      let r := s.coreAccess k x n (.write (BitVec.ofNat 2048 v))
      (match r.1 with
        | some _ => r.2
        | none => fail s).advance k

def State.storeOp (s : State) (k : Nat) (n v : Nat) (seg : SegId) (e : DWord) : State :=
  let c := s.cpu k
  let a := c.segAddr seg e
  match c.segFault seg e n false true with
  | some code => s.dataFault k code a accStore
  | none => match s.place k a n with
    | none => s.dataFault k 7 a accStore
    | some (.loc key _) =>
      let l := storeEnts key (bytesOfNat n v)
      if 4 < (s.core k).storeBuf.length + l.length then s
      else (s.modCore k fun c => { c with storeBuf := c.storeBuf ++ l }).advance k
    | some (.dev _) => s.postStore k a n v

def execSt (c : CoreId) (op : StOp) (rs rs1 : RegId) (seg : SegId) (off : BitVec 13) (s : State) :
    Host.Outcome State Fault Refusal :=
  .next (s.issue c [rs, rs1] fun s =>
    s.storeOp c (stSize op) (bvFld (s.g c rs) 0 (8 * stSize op)) seg ((s.cpu c).offset rs1 off.toInt))

/-- STORE_BUFFER_WRITE (R310): the oldest entry writes and leaves. -/
def State.bufWrite (s : State) (k : Nat) : State :=
  match (s.core k).storeBuf with
  | [] => s
  | e :: r => (s.modCore k fun c => { c with storeBuf := r }).poke e.addr e.data

def execStoreBufferWrite (c : CoreId) (s : State) : Host.Outcome State Fault Refusal := .next (s.bufWrite c)

/-- IMPRECISE_BUS_ERROR (12 R362): at a boundary; EADDR is the first failed store's address, and only one is recorded. -/
def State.impreciseError (s : State) (k : Nat) : State :=
  let c := s.core k
  match c.failed with
  | [] => s
  | a :: _ =>
    if c.cpu.outLoad.isNone && (c.run = .executing || c.run = .wfi) then
      (s.modCore k fun c => { c with failed := [] }).takeException k 7 c.cpu.pc a accStore true
    else s

def execImpreciseBusError (c : CoreId) (s : State) : Host.Outcome State Fault Refusal := .next (s.impreciseError c)

/-! ## Instruction cache refills (09 R307) -/

/-- A miss at PC loads its line into the cache, four lines a set, least recently used out, and into the line buffer. The refill
waits until it is served; data that cannot be corrected is a Bus Error of the fetch (05 R177). -/
def State.refill (s : State) (k : Nat) (chk : DataCheck) : State :=
  let a := (s.pc k).toNat
  let c := s.core k
  let line := a / 64
  if c.run ≠ .executing || c.cpu.outLoad.isSome || c.cpu.sk || (s.fetchFault k (s.pc k)).isSome || s.fetchReady k a ||
      s.coreReach k (64 * line) 64 = .wait then s
  else
    let s := (if isOwnHbm k (64 * line) 64 then s.useOctets k (64 * line) 64 else s).memCheck (64 * line) chk
    if chk = .uncorrectable then s.fetchRaise k 7
    else
      let l : Nat × BitVec 512 := (line, BitVec.ofNat 512 (natOfBytes (s.bytes (64 * line) 64)))
      s.setCore k { c with
        cpu := { c.cpu with lineBuf := some l }
        icache := tabSet [] c.icache (line % 64) ((l :: tabGet [] c.icache (line % 64)).take 4) }

def execIcacheRefill (c : Checked CoreId DataCheck) (s : State) : Host.Outcome State Fault Refusal := .next (s.refill c.val c.chk)

/-! ## Atomics (R285, R286) -/

def wAtomic (f : Nat) (rd rs1 rs2 : RegId) (seg : SegId) : Word :=
  BitVec.ofNat 32 (0x2C * 2 ^ 26 + rd.toNat * 2 ^ 21 + rs1.toNat * 2 ^ 16 + rs2.toNat * 2 ^ 11 + seg.toNat * 2 ^ 8 + f)

/-- The place admits an atomic of core k (R285): its data RAM; a hank of its own hoop; for a distaff core the context store and
the bobbin pool view. -/
def atomicPlace (k : Nat) (p : Option Place) : Bool :=
  match p with
  | some (.loc _ d) => d
  | some (.dev a) =>
    if k < 128 then decide (0x010000000000 ≤ a) && decide (a < 0x010010000000) && decide ((a - 0x010000000000) / 0x400000 / 4 = k / 8)
    else (lockTargetOf a).isSome
  | none => false

/-- The 32-byte granule of an address, by memory key or device address (R286). -/
def granuleOf (p : Place) : Nat :=
  match p with
  | .loc key _ => key / 32
  | .dev a => a / 32

/-- A locked sequence of two beats at the address must wait (R207, R285). -/
def State.lockWaits (s : State) (p : Place) : Bool :=
  match p with
  | .dev a => (match lockTargetOf a with | some t => !s.lockFree t | none => false)
  | .loc _ _ => false

/-- The locked sequence at the address has ended. -/
def State.lockDone (s : State) (p : Place) : State :=
  match p with
  | .dev a => (match lockTargetOf a with | some t => s.setLock t { s.lockState t with held := none, ended := some s.clock.u } | none => s)
  | .loc _ _ => s

/-- What an atomic does once its checks are passed: the place, the segment offset and the address. -/
def State.atomicOp (s : State) (k : Nat) (seg : SegId) (e : DWord) (n : Nat) (rd wr : Bool) (go : Place → State) : State :=
  let c := s.cpu k
  let a := c.segAddr seg e
  if !s.quiet k then s
  else match c.segFault seg e n rd wr with
    | some code => s.dataFault k code a accAtomic
    | none =>
      let p := s.place k a n
      if a.toNat % n ≠ 0 || ((p.isSome || k < 128) && !atomicPlace k p) then s.dataFault k 8 a accAtomic
      else match p with
        | some x => go x
        | none => s.dataFault k 7 a accAtomic

/-- End an atomic by how its access ended. -/
def State.atomicEnd {α : Type} (s : State) (k : Nat) (r : Elem α) (go : α → State → State) : State :=
  match r with
  | .done v s1 => go v s1
  | .wait => s
  | .fault code a s1 => s1.dataFault k code a accAtomic

/-- LR (R286). The upper half of rd after LR.W is not stated: a free value. -/
def execLr (c : CoreId) (dbl : Bool) (rd rs1 : RegId) (seg : Checked SegId DataCheck) (s : State) :
    Host.Outcome State Fault Refusal :=
  .next (s.issue c [rd, rs1] fun s =>
    let n := if dbl then 8 else 4
    let e := (s.cpu c).get rs1
    s.atomicOp c seg.val e n true false fun p =>
      s.atomicEnd c (s.elemRead c seg.val e n false seg.chk) fun v s1 =>
        let r := if dbl then (BitVec.ofNat 64 v, s1) else (bvSet s1.fresh.1 0 32 v, s1.fresh.2)
        (r.2.result c rd r.1).modCpu c fun u => { u with resv := some (granuleOf p) })

/-- SC (R286): it stores and writes 0 when the reservation covers the address, else it writes 1; the reservation clears. -/
def execSc (c : CoreId) (dbl : Bool) (rd rs1 rs2 : RegId) (seg : SegId) (s : State) : Host.Outcome State Fault Refusal :=
  .next (s.issue c [rd, rs1, rs2] fun s =>
    let n := if dbl then 8 else 4
    let e := (s.cpu c).get rs1
    s.atomicOp c seg e n false true fun p =>
      let clear (s : State) : State := s.modCpu c fun u => { u with resv := none }
      if (s.cpu c).resv ≠ some (granuleOf p) then clear (s.result c rd 1)
      else if s.lockWaits p then s
      else s.atomicEnd c (s.elemWrite c seg e n (bvFld (s.g c rs2) 0 (8 * n))) fun _ s1 =>
        clear ((s1.lockDone p).result c rd 0))

/-- TAS (R286): the doubleword goes to rd and becomes 1, with nothing between. -/
def execTas (c : CoreId) (rd rs1 : RegId) (seg : Checked SegId DataCheck) (s : State) :
    Host.Outcome State Fault Refusal :=
  .next (s.issue c [rd, rs1] fun s =>
    let e := (s.cpu c).get rs1
    s.atomicOp c seg.val e 8 true true fun p =>
      if s.lockWaits p then s
      else s.atomicEnd c (s.elemRead c seg.val e 8 true seg.chk) fun v s1 =>
        s.atomicEnd c (s1.elemWrite c seg.val e 8 1) fun _ s2 => (s2.lockDone p).result c rd (BitVec.ofNat 64 v))

/-! ## Short-vector memory (03 R147, R148, 08 R296) -/

def wVld (kind : Nat) (v rs1 : RegId) (seg : SegId) (low : Nat) : Word :=
  BitVec.ofNat 32 (0x34 * 2 ^ 26 + v.toNat * 2 ^ 21 + rs1.toNat * 2 ^ 16 + seg.toNat * 2 ^ 13 + kind * 2 ^ 11 + low)

/-- How the elements of a short-vector access end. -/
inductive SvEnd where
  | done (vec : Nat) (s : State)
  | wait
  /-- stopped at an element -/
  | fault (i code : Nat) (a : DWord) (vec : Nat) (s : State)

/-- The part of a load that R311 checks with element i: the bytes of the part before the element, and its length. A VLD is
checked in parts of 16 bytes from its first element i0 to its last, n − 1 (09 Table 9-4); a VLDX element by element. -/
def svPart (whole : Bool) (size i0 n i : Nat) : Nat × Nat :=
  let b := (i - i0) * size
  if whole then (b % 16, min 16 ((n - i0) * size - b / 16 * 16)) else (0, size)

/-- Elements i on, m of them, in order: offset off i; a load builds vec, a store takes its elements from it. chk: what the check
bits say of each element; part: the part of a load that is checked against the store buffer with it. -/
def State.svMem (k : Nat) (seg : SegId) (size : Nat) (off : Nat → DWord) (store : Bool) (chk : Nat → DataCheck)
    (part : Nat → Nat × Nat) : Nat → Nat → Nat → State → SvEnd
  | 0, _, vec, s => .done vec s
  | m + 1, i, vec, s =>
    if store then
      match s.elemWrite k seg (off i) size (elGet vec i (8 * size)) true with
      | .done _ s1 => State.svMem k seg size off store chk part m (i + 1) vec s1
      | .wait => .wait
      | .fault code a s1 => .fault i code a vec s1
    else
      match s.elemRead k seg (off i) size false (chk i) (part i).1 (part i).2 with
      | .done v s1 => State.svMem k seg size off store chk part m (i + 1) (elSet vec i (8 * size) v) s1
      | .wait => .wait
      | .fault code a s1 => .fault i code a vec s1

/-- What the check bits say of element i. -/
def elemData (chk : ElemCheck) (i : Nat) : DataCheck :=
  match chk.find? fun e => e.elem.toNat = i with
  | some e => e.chk
  | none => .ok

/-- A short-vector memory instruction with its word w: VSTART to LEN − 1, then VSTART is 0; a fault leaves VSTART at its
element. whole: its elements stand one after another. -/
def State.svAccess (s : State) (k : Nat) (v : RegId) (seg : SegId) (off : Nat → DWord) (store legal whole : Bool)
    (chk : Nat → DataCheck) (w : Word) : State :=
  let c := s.cpu k
  let f := svPly c.svl
  let n := svLen c.svl
  let i := bvFld c.vstart 0 8
  if !legal || !plyOk v f then s.raiseWord k 1 w
  else
    let keep (s : State) (vec : Nat) (start : Nat) : State :=
      s.modCpu k fun u => { (if store then u else u.plySet v.toNat f vec) with vstart := BitVec.ofNat 64 start }
    match State.svMem k seg (tySize (svType c.svl)) off store chk (svPart whole (tySize (svType c.svl)) i n) (n - i) i (c.plyGet v.toNat f) s with
    | .done vec s1 => (keep s1 vec 0).advance k
    | .wait => s
    | .fault j code a vec s1 => (keep s1 vec j).dataFault k code a (if store then accStore else accLoad)

def execVld (c : CoreId) (vd rs1 : RegId) (seg : SegId) (off : Checked (BitVec 11) ElemCheck) (s : State) :
    Host.Outcome State Fault Refusal :=
  .next (s.issue c [rs1] fun s =>
    let u := s.cpu c
    s.svAccess c vd seg (fun i => u.offset rs1 (off.val.toInt + Int.ofNat (i * tySize (svType u.svl)))) false true true (elemData off.chk)
      (wVld 0 vd rs1 seg off.val.toNat))

def execVst (c : CoreId) (vd rs1 : RegId) (seg : SegId) (off : BitVec 11) (s : State) : Host.Outcome State Fault Refusal :=
  .next (s.issue c [rs1] fun s =>
    let u := s.cpu c
    s.svAccess c vd seg (fun i => u.offset rs1 (off.toInt + Int.ofNat (i * tySize (svType u.svl)))) true true true (fun _ => .ok)
      (wVld 1 vd rs1 seg off.toNat))

/-- Offset of element i by the U32 index vector of ply 4 at ix. -/
def Cpu.indexed (u : Cpu) (rs1 ix : RegId) (i : Nat) : DWord :=
  u.offset rs1 (Int.ofNat (elGet (u.plyGet ix.toNat 4) i 32 * tySize (svType u.svl)))

/-- The index register names a ply of 4, and LEN is at most 16 (03 R146, R147). -/
def Cpu.indexOk (u : Cpu) (ix : RegId) : Bool := plyOk ix 4 && decide (svLen u.svl ≤ 16)

def execVldx (c : CoreId) (vd rs1 : RegId) (seg : SegId) (ix : Checked RegId ElemCheck) (s : State) :
    Host.Outcome State Fault Refusal :=
  .next (s.issue c [rs1] fun s =>
    let u := s.cpu c
    s.svAccess c vd seg (u.indexed rs1 ix.val) false (u.indexOk ix.val) false (elemData ix.chk) (wVld 2 vd rs1 seg (ix.val.toNat * 2 ^ 6)))

def execVstx (c : CoreId) (vd rs1 : RegId) (seg : SegId) (ix : RegId) (s : State) : Host.Outcome State Fault Refusal :=
  .next (s.issue c [rs1] fun s =>
    let u := s.cpu c
    s.svAccess c vd seg (u.indexed rs1 ix) true (u.indexOk ix) false (fun _ => .ok) (wVld 3 vd rs1 seg (ix.toNat * 2 ^ 6)))

end Sys2Proof.Machine
end

