-- ==== Sys2Proof/Machine/ParsalQueue.lean ====
section
/-! DEFINITION. The queue engine port of a core, CP1 (08 R298, Table 8-18, 06 R220, R221, R225, R522). -/

namespace Sys2Proof.Machine
open Sys2Proof

/-- Word of major 0x3A. -/
def wQ (fn : Nat) (rd rq rs2 : RegId) (seg : SegId) : Word :=
  BitVec.ofNat 32 (0x3A * 2 ^ 26 + rd.toNat * 2 ^ 21 + rq.toNat * 2 ^ 16 + rs2.toNat * 2 ^ 11 + seg.toNat * 2 ^ 8 + fn)

/-- The address of the window of queue q, the access that a queue of another partition refuses. -/
def windowAddr (q : Nat) : DWord := BitVec.ofNat 64 (0x012000000000 + 0x200 * q)

/-- A CP1 operation on the queue that rq names: Bus Error where the core does not reach it, and it waits while a region scrub
holds the queue. acc: ECAUSE.ACC. -/
def State.cp1 (s : State) (k : Nat) (rq : RegId) (acc : Nat) (go : Nat → State) : State :=
  let q := (s.g k rq).toNat
  if 65536 ≤ q || !s.reachesQueue (coreMaster k) q then s.dataFault k 7 (windowAddr q) acc
  else if s.regionHolds q then s
  else go q

/-- Offset of the item record: bits [5:0] are taken as 0. -/
def recordOffset (x : DWord) : DWord := x &&& ~~~63

/-- A push by core k: a running skein stages it. -/
def State.cp1Push (s : State) (k q : Nat) (rec : Rec64) : Nat × State :=
  if k < 128 then
    let r := s.corePush k q (itemOf rec) (recCont rec)
    (if r.1 then 0 else if (s.disp k).running.isSome && (itemOf rec).isSome then 3 else 1, r.2)
  else
    let r := s.pushItem q pcNone (itemOf rec)
    (if r.1 then 0 else 1, r.2)

def execQpush (c : CoreId) (rd rq rs2 : RegId) (seg : Checked SegId DataCheck) (s : State) :
    Host.Outcome State Fault Refusal :=
  .next (s.issue c [rd, rq, rs2] fun s =>
    match s.elemRead c seg.val (recordOffset (s.g c rs2)) 64 false seg.chk with
    | .wait => s
    | .fault code a s1 => s1.dataFault c code a accLoad
    | .done v s1 => s1.cp1 c rq accStore fun q =>
        let r := s1.cp1Push c q (BitVec.ofNat 512 v)
        r.2.result c rd (BitVec.ofNat 64 r.1))

/-- A pop by core k. -/
def State.cp1Pop (s : State) (k q : Nat) (chk : CellCheck) : Option (QItem × Bool) × State :=
  if k < 128 then s.corePop k q chk else s.popItem q chk

/-- QPOP: nothing is popped unless the record's place can be written. -/
def execQpop (c : CoreId) (rd rq rs2 : RegId) (seg : SegId) (chk : CellCheck) (s : State) :
    Host.Outcome State Fault Refusal :=
  .next (s.issue c [rd, rq, rs2] fun s =>
    let e := recordOffset (s.g c rs2)
    match s.elemWrite c seg e 64 0 with
    | .wait => s
    | .fault code a s1 => s1.dataFault c code a accStore
    | .done _ _ => s.cp1 c rq accLoad fun q =>
        let r := s.cp1Pop c q chk
        let v := match r.1 with | some (i, p) => (popRecord i p).toNat | none => 0
        let len := match r.1 with | some (i, _) => i.len | none => 0
        match r.2.elemWrite c seg e 64 v with
        | .done _ s2 => s2.result c rd (BitVec.ofNat 64 len)
        | .wait => s
        | .fault code a s2 => s2.dataFault c code a accStore)

/-- The queue takes Keep-mode operations (flush = false) or FLUSH (flush = true); otherwise they are ignored with ERR. -/
def State.qTakes (s : State) (q : Nat) (flush : Bool) : Bool := (s.queue q).state = .active && (s.queue q).flush = flush

def execQmark (c : CoreId) (rd rq : RegId) (s : State) : Host.Outcome State Fault Refusal :=
  .next (s.issue c [rd, rq] fun s => s.cp1 c rq accStore fun q =>
    (s.markQueue q).result c rd (if s.qTakes q false then 0 else 1))

def execQrewind (c : CoreId) (rd rq : RegId) (s : State) : Host.Outcome State Fault Refusal :=
  .next (s.issue c [rd, rq] fun s => s.cp1 c rq accStore fun q =>
    (s.rewindQueue q).result c rd (if s.qTakes q false then 0 else 1))

def execQrelease (c : CoreId) (rd rq rs2 : RegId) (seg : Checked SegId Bool) (s : State) :
    Host.Outcome State Fault Refusal :=
  .next (s.issue c [rd, rq, rs2] fun s =>
    if seg.val ≠ 0 then s.raiseWord c 1 (wQ 4 rd rq rs2 seg.val)
    else s.cp1 c rq accStore fun q =>
      let n := (s.g c rs2).toNat
      let r := s.releaseQueue q n
      if s.linkBreaks q seg.chk then (s.breakQueue q).result c rd 0 else r.2.result c rd (BitVec.ofNat 64 r.1))

def execQflush (c : CoreId) (rd : RegId) (rq : Checked RegId Bool) (s : State) : Host.Outcome State Fault Refusal :=
  .next (s.issue c [rd, rq.val] fun s => s.cp1 c rq.val accStore fun q =>
    if s.linkBreaks q rq.chk then (s.breakQueue q).result c rd 1
    else (s.flushQueue q).result c rd (if s.qTakes q true then 0 else 1))

def execQstat (c : CoreId) (rd rq : RegId) (s : State) : Host.Outcome State Fault Refusal :=
  .next (s.issue c [rd, rq] fun s => s.cp1 c rq accLoad fun q =>
    s.result c rd (BitVec.ofNat 64 (s.queue q).statusWord))

end Sys2Proof.Machine
end

