-- ==== Sys2Proof/Machine/ParsalRep.lean ====
section
/-! DEFINITION. Block-repeat instructions (08 R287 to R289, Tables 8-10, 8-11). One command is the work up to the next element
boundary, which is an instruction boundary (R288): the PC stays at the REP until it completes. -/

namespace Sys2Proof.Machine
open Sys2Proof

/-- Word of major 0x2D. -/
def wRep (fn : Nat) (rc ra rb : RegId) (sseg dseg : SegId) (size : BitVec 2) (lock : Bool) : Word :=
  BitVec.ofNat 32 (0x2D * 2 ^ 26 + rc.toNat * 2 ^ 21 + ra.toNat * 2 ^ 16 + rb.toNat * 2 ^ 11 + sseg.toNat * 2 ^ 8 +
    dseg.toNat * 2 ^ 5 + size.toNat * 2 ^ 3 + b2n lock * 2 ^ 2 + fn)

/-- One step of an offset register by n bytes, and of the count. -/
def repMove (up : Bool) (n : Nat) (x : DWord) : DWord := if up then x + BitVec.ofNat 64 n else x - BitVec.ofNat 64 n

/-- The registers at the end of an element (R287): they move together; the PC leaves the REP when the count reaches 0. -/
def State.repNext (s : State) (k : Nat) (rc : RegId) (walk : List RegId) (n : Nat) : State :=
  let c := s.cpu k
  let cnt := c.get rc
  let up := 0 < cnt.toInt
  let left := repMove (!up) 1 cnt
  s.modCpu k fun u =>
    let u := walk.foldl (fun u r => u.set r (repMove up n (c.get r))) (u.set rc left)
    { u with pc := if left = 0 then u.pc + 4 else u.pc }

/-- What every REP does first (R287, 09 Table 9-3): the encoding, an empty store buffer, and a count of 0, which the locked form
does not allow (R289). -/
def State.repStart (s : State) (k : Nat) (w : Word) (rc : RegId) (lock : Bool) (go : State) : State :=
  if !legalWord w.toNat then s.raiseWord k 1 w
  else if !(s.core k).storeBuf.isEmpty then s
  else if s.g k rc = 0 && !lock then s.advance k
  else go

/-- End an element access. -/
def State.repEnd {α : Type} (s : State) (k acc : Nat) (r : Elem α) (go : α → State → State) : State :=
  match r with
  | .done v s1 => go v s1
  | .wait => s
  | .fault code a s1 => s1.dataFault k code a acc

/-- An element of two operands: a fault of the second, at offset e of segment seg, that its check finds leaves the first unread
(R288). A fault of the first goes before it. -/
def State.repBoth (s : State) (k acc : Nat) (first : Option Nat) (seg : SegId) (e : DWord) (n : Nat) (wr : Bool) (go : State) :
    State :=
  match first, s.elemCheck k seg e n (!wr) wr with
  | none, some code => s.dataFault k code ((s.cpu k).segAddr seg e) acc
  | _, _ => go

/-- One element of an unlocked REP.MOV. -/
def State.repMovOne (s : State) (k : Nat) (rc ra rb : RegId) (sseg dseg : SegId) (n : Nat) (chk : DataCheck) : State :=
  s.repBoth k accStore (s.elemCheck k sseg (s.g k ra) n true false) dseg (s.g k rb) n true
    (s.repEnd k accLoad (s.elemRead k sseg (s.g k ra) n false chk) fun v s1 =>
      match s1.elemWrite k dseg (s.g k rb) n v with
      | .done _ s2 => s2.repNext k rc [ra, rb] n
      | .wait => s
      | .fault code a s1 => s1.dataFault k code a accStore)

/-! ## The locked form (R289) -/

/-- Beats of the locked read. -/
def lockBeats (cnt : Nat) : Nat := ceilDiv (cnt * 8) 64

/-- Read m beats from address a on: none when one ends with an error response. -/
def State.lockRead (k : Nat) : Nat → Nat → State → Option (List Byte) × State
  | 0, _, s => (some [], s)
  | m + 1, a, s =>
    match s.coreAccess k a 64 .read with
    | (none, s1) => (none, s1)
    | (some l, s1) =>
      match State.lockRead k m (a + 64) s1 with
      | (some r, s2) => (some (l ++ r), s2)
      | (none, s2) => (none, s2)

/-- The source of a locked REP.MOV breaks a rule of R289. -/
def lockIllegal (p : Option Place) (e cnt : DWord) (size : BitVec 2) : Bool :=
  !(match p with | some (.dev a) => (lockTargetOf a).isSome | _ => false) || e.toNat % 64 ≠ 0 || size ≠ 3 || cnt.toInt ≤ 0 ||
    decide (128 < cnt.toInt)

/-- The locked read: the buffer takes what the beats before a break brought (R289). -/
def State.lockFill (s : State) (k : Nat) (rc ra : RegId) (sseg : SegId) (size : BitVec 2) (broken : Option (BitVec 4))
    (chk : DataCheck) : State :=
  let c := s.cpu k
  let e := c.get ra
  let cnt := c.get rc
  let a := c.segAddr sseg e
  let bytes := cnt.toNat * 8
  let n := lockBeats cnt.toNat
  let got := match broken with | some b => min b.toNat n | none => n
  match c.segFault sseg e (if bytes ≤ 1024 then bytes else 1) true false with
  | some code => s.dataFault k code a accAtomic
  | none =>
    let p := s.place k a 1
    if lockIllegal p e cnt size then s.dataFault k 8 a accAtomic
    else if k < 128 && s.inM4 k then s.dataFault k 7 a accAtomic
    else match lockTargetOf a.toNat with
      | none => s
      | some t =>
        if !s.lockFree t then s
        else if chk = .uncorrectable && isChecked a.toNat && 0 < got then (s.readCheck a.toNat chk).dataFault k 7 a accAtomic
        else match State.lockRead k got a.toNat s with
          | (none, _) => s.dataFault k 7 a accAtomic
          | (some l, s1) =>
            let l := l.take bytes
            let s2 := (if isChecked a.toNat && 0 < got then s1.readCheck a.toNat chk else s1).setLock t
              { s.lockState t with held := none, ended := some s.clock.u }
            if l.isEmpty then s2.advance k
            else s2.modCpu k fun u => { u with lockBuf := some ⟨u.pc, e, l⟩ }

/-- One element of the write phase: from the buffer; the flag clears with the last element, and a broken read then completes
with its count. -/
def State.lockWrite (s : State) (k : Nat) (rc ra rb : RegId) (dseg : SegId) (b : LockBuf) : State :=
  let i := (s.g k ra - b.base).toNat
  match s.elemWrite k dseg (s.g k rb) 8 (natOfBytes ((b.data.drop i).take 8)) with
  | .done _ s1 =>
    let s2 := s1.repNext k rc [ra, rb] 8
    if b.data.length ≤ i + 8 then
      s2.modCpu k fun u => { u with lockBuf := none, pc := b.at_ + 4 }
    else s2
  | .wait => s
  | .fault code a s1 => s1.dataFault k code a accAtomic

def State.repMovLocked (s : State) (k : Nat) (rc ra rb : RegId) (sseg dseg : SegId) (size : BitVec 2)
    (broken : Option (BitVec 4)) (chk : DataCheck) : State :=
  match (s.cpu k).lockBuf with
  | some b =>
    if b.at_ = s.pc k then s.lockWrite k rc ra rb dseg b
    else s.dataFault k 8 ((s.cpu k).segAddr sseg (s.g k ra)) accAtomic
  | none => s.lockFill k rc ra sseg size broken chk

/-! ## The commands -/

def execRepMov (c : CoreId) (rc ra rb : RegId) (sseg dseg : SegId)
    (size : BitVec 2) (lock : Bool) (broken : Checked (Option (BitVec 4)) DataCheck) (s : State) :
    Host.Outcome State Fault Refusal :=
  .next (s.issue c [rc, ra, rb] fun s =>
    s.repStart c (wRep 0 rc ra rb sseg dseg size lock) rc lock
      (if lock then s.repMovLocked c rc ra rb sseg dseg size broken.val broken.chk
      else s.repMovOne c rc ra rb sseg dseg (2 ^ size.toNat) broken.chk))

def execRepFill (c : CoreId) (rc ra rb : RegId) (sseg dseg : SegId) (size : BitVec 2) (s : State) :
    Host.Outcome State Fault Refusal :=
  .next (s.issue c [rc, ra, rb] fun s =>
    let n := 2 ^ size.toNat
    s.repStart c (wRep 1 rc ra rb sseg dseg size false) rc false
      (s.repEnd c accStore (s.elemWrite c dseg (s.g c rb) n (bvFld (s.g c ra) 0 (8 * n))) fun _ s1 => s1.repNext c rc [rb] n))

/-- The first unequal pair completes it, with the registers naming that pair. -/
def execRepCmp (c : CoreId) (rc ra rb : RegId) (sseg dseg : SegId)
    (size : Checked (BitVec 2) (DataCheck × DataCheck)) (s : State) :
    Host.Outcome State Fault Refusal :=
  .next (s.issue c [rc, ra, rb] fun s =>
    let n := 2 ^ size.val.toNat
    s.repStart c (wRep 2 rc ra rb sseg dseg size.val false) rc false
      (s.repBoth c accLoad (s.elemCheck c sseg (s.g c ra) n true false) dseg (s.g c rb) n false
        (s.repEnd c accLoad (s.elemRead c sseg (s.g c ra) n false size.chk.1) fun x s1 =>
          match s1.elemRead c dseg (s.g c rb) n false size.chk.2 with
          | .done y s2 => if x = y then s2.repNext c rc [ra, rb] n else s2.advance c
          | .wait => s
          | .fault code a s2 => s2.dataFault c code a accLoad)))

/-- The first equal element completes it, with the registers naming that element. -/
def execRepFind (c : CoreId) (rc ra rb : RegId) (sseg dseg : SegId)
    (size : Checked (BitVec 2) DataCheck) (s : State) :
    Host.Outcome State Fault Refusal :=
  .next (s.issue c [rc, ra, rb] fun s =>
    let n := 2 ^ size.val.toNat
    s.repStart c (wRep 3 rc ra rb sseg dseg size.val false) rc false
      (s.repEnd c accLoad (s.elemRead c dseg (s.g c rb) n false size.chk) fun x s1 =>
        if x = bvFld (s.g c ra) 0 (8 * n) then s1.advance c else s1.repNext c rc [rb] n))

end Sys2Proof.Machine
end

