-- ==== Sys2Proof/Machine/Record.lean ====
section
/-! DEFINITION. The write of the fatal record (17 R505, R506). -/

namespace Sys2Proof.Machine
open Sys2Proof

/-- A register of the control register space in its own width, as the record holds it. -/
def State.regBytes (s : State) (o : Nat) : List Byte :=
  match s.regAt o with
  | some r => bytesOfNat r.1 r.2.1
  | none => []

/-- A body is a multiple of 16 bytes long. -/
def padBody (l : List Byte) : List Byte := l ++ List.replicate ((16 - l.length % 16) % 16) 0

/-- ERRS: the registers of the reset block that Table 17-11 lists, the log, and the 18 sensors. -/
def State.errsBody (s : State) : List Byte :=
  ([0x00, 0x10, 0x18, 0x20, 0x100, 0x108, 0x110] ++ (List.range 64).map fun i => 0x200 + 8 * i).flatMap (fun o => s.regBytes (0xE00000 + o)) ++
    (List.range 18).flatMap fun i => bytesOfNat 2 (twos 16 (s.temp i))

/-- TIME: the registers of 14 Table 14-1, and SERVO_STATE. -/
def State.timeBody (s : State) : List Byte :=
  [0x00, 0x04, 0x08, 0x0C, 0x10, 0x14, 0x18, 0x20, 0x24, 0x28, 0x2C, 0x30, 0x34].flatMap (fun o => s.regBytes (0x900000 + o)) ++
    bytesOfNat 4 ((s.servoNum 12).getD 0)

/-- PART of partition p: the registers of 07 Table 7-1, RGN_CFG, RGN_ERR and the timer block. -/
def State.partBody (s : State) (p : Nat) : List Byte :=
  ([0x00, 0x10, 0x18, 0x20, 0x28, 0x30, 0x38].map fun o => 0x500000 + 0x100 * p + o).flatMap s.regBytes ++
    [0x401000 + 0x20 * p, 0x401008 + 0x20 * p].flatMap s.regBytes ++
    ((List.range 16).flatMap fun n => [0x00, 0x04, 0x08, 0x0C, 0x10, 0x14, 0x18, 0x1C, 0x24].map fun o =>
      0xA00000 + 0x10000 * p + 0x40 * n + o).flatMap s.regBytes ++
    ([0x800, 0x808, 0x80C, 0x810].map fun o => 0xA00000 + 0x10000 * p + o).flatMap s.regBytes

def words (l : List Nat) : List Byte := l.flatMap (bytesOfNat 8)

/-- A core's state: g1 to g31, PC, the special registers of 08 Table 8-1, and the store buffer. -/
def State.coreBody (s : State) (k : Nat) : List Byte :=
  let c := s.core k
  words ((List.range 31).map fun i => (tabGet 0 c.cpu.g (i + 1)).toNat) ++ words [c.cpu.pc.toNat] ++
    words (((List.range 0x21).filter srListed).map fun n => (s.srRead k n).toNat) ++
    c.storeBuf.flatMap fun e => words [e.addr, e.data.length] ++ e.data

/-- A register of the controller CSR area of position w. -/
def State.csrBytes (s : State) (w o : Nat) : List Byte :=
  match s.csrReg w o with
  | some r => bytesOfNat r.1 r.2.1
  | none => []

/-- CTRL of position w: its core's state, level 1 and MC registers, POS_CTL, the logical spindle, and the contexts of the 32 save
slots. -/
def State.ctrlBody (s : State) (w : Nat) : List Byte :=
  let k := s.logOf w
  (match k with
    | some k => s.coreBody k
    | none => []) ++
    ([0x21000, 0x21008, 0x21010, 0x21018, 0x21030] ++ ((List.range 8).map fun j => 0x21040 + 8 * j) ++ [0x2E000] ++
      ((List.range 16).map fun j => 0x2E100 + 8 * j) ++ [0x20000]).flatMap (s.csrBytes w) ++
    bytesOfNat 4 (k.getD 0xFFFFFFFF) ++
    (List.range 32).flatMap fun n =>
      bytesOfNat 4 (match k with
        | some k => (((s.disp k).saved.find? fun e => e.1 = n).map fun e => e.2.ctx).getD 0xFFFFFFFF
        | none => 0xFFFFFFFF)

def VTap.recordBytes : Option VTap → List Byte
  | some t => [BitVec.ofNat 8 t.prod, BitVec.ofNat 8 (t.cons.getD 0xFF), BitVec.ofNat 8 t.buf.length, 1] ++ bytesOfNat 4 t.first
  | none => bytesOfNat 8 0

/-- SEQR of position w: CP0 registers, VPROG0 to VPROG3 and the microprogram counters of the 16 slots, and the taps. -/
def State.seqrBody (s : State) (w : Nat) : List Byte :=
  match s.logOf w with
  | none => []
  | some k =>
    let q := s.seqr k
    let slot (n : Nat) : State := s.setSeqr k { q with vslotsel := n }
    ((List.range 16).flatMap fun d => bytesOfNat 16 (tabGet 0 q.sd d).toNat) ++
      words ((List.range 7).map fun i => (s.cp0Read k (0x10 + i) false).toNat) ++
      ((List.range 16).flatMap fun n => words ((List.range 4).map fun i => ((slot n).cp0Read k (0x18 + i) false).toNat)) ++
      ((List.range 16).flatMap fun n => bytesOfNat 2 (q.slot n).upc) ++
      (List.range 8).flatMap fun n => VTap.recordBytes (q.tap n)

/-- QENG: POOL_STAT, the queue records and the watermark registers. -/
def State.qengBody (s : State) : List Byte :=
  s.regBytes 0x400000 ++
    ((List.range 65536).flatMap fun q =>
      let x := s.queue q
      words [x.attrWord, x.clim + x.occ * 2 ^ 20 + x.heldN * 2 ^ 40, x.drops, x.result.toNat * 2 ^ 60 + b2n x.busy * 2 ^ 63]) ++
    ((List.range 64).flatMap fun g => s.regBytes (0x402000 + 0x10 * g) ++ s.regBytes (0x402008 + 0x10 * g)) ++ s.regBytes 0x403000

/-- CTXS: the whole context store. -/
def State.ctxsBody (s : State) : List Byte := (List.range 262144).flatMap fun i => bytesOfNat 64 (s.entry i).toNat

/-- The sections between HEAD and END in the order of Table 17-11, each body padded to 16 bytes; every register in its own width
(DESIGN CHOICE, log entry 92: the manual gives the contents of a body and not their places). -/
def State.recordMiddle (s : State) : List Byte :=
  section_ tagErrs 0 (padBody s.errsBody) ++ section_ tagTime 0 (padBody s.timeBody) ++
    ((List.range 16).flatMap fun p => section_ tagPart p (padBody (s.partBody p))) ++
    ((List.range 144).flatMap fun w => section_ tagCtrl w (padBody (s.ctrlBody w))) ++
    ((List.range 144).flatMap fun w => section_ tagSeqr w (padBody (s.seqrBody w))) ++
    ((List.range 4).flatMap fun c => section_ tagDist c (padBody (s.coreBody (128 + c)))) ++
    section_ tagQeng 0 (padBody s.qengBody) ++ section_ tagCtxs 0 s.ctxsBody

/-- What follows HEAD: those sections and END, with the section count and the record's length. -/
def State.recordRest (s : State) : List Byte :=
  let l := s.recordMiddle
  l ++ section_ endTag 0 (bytesOfNat 4 recordSections ++ bytesOfNat 4 (64 + l.length + 32) ++ bytesOfNat 8 0)

/-- FATAL_RECORD_WRITE: the lowest-numbered running distaff core writes HEAD with COMPLETE = 0, the other sections, and HEAD again
with COMPLETE = 1 (R506), fills the summary and sends EMERGENCY 0x0050. -/
def State.writeRecord (s : State) : State :=
  if s.node ≠ .fault || s.rst.recorded || s.distaffRunning = 0 then s
  else
    let gen := if s.headValid then (s.headField 4 4 + 1) % 2 ^ 32 else 1
    let e : ErrEnt := s.rst.first.getD ⟨0, 0, 0, true⟩
    let rest := s.recordRest
    let s := s.poke recordBase (section_ headTag 0 (s.headBody gen false))
    let s := s.poke (recordBase + 64) (rest.take (recordSize - 64))
    let s := s.poke recordBase (section_ headTag 0 (s.headBody gen true))
    let s := s.setSummary 1 gen e.tb.toNat e.code.toNat e.detail.toNat recordSections 0
    ({ s with rst := { s.rst with recorded := true } }).emergency 0x0050 e.code.toNat

def execFatalRecordWrite (s : State) : Host.Outcome State Fault Refusal := .next s.writeRecord

end Sys2Proof.Machine
end

