-- ==== Sys2Proof/Machine/Dispatch.lean ====
section
/-! DEFINITION. One arm per command: its meaning, or a rejection by name. -/

namespace Sys2Proof.Machine
open Sys2Proof

def exec (i : Instr) (s : State) : Host.Outcome State Fault Refusal :=
  match i with
  | .openStream p entry => Sys2Proof.Machine.execOpenStream p entry s
  | .closeStream p entry => Sys2Proof.Machine.execCloseStream p entry s
  | .forceClose p entry => Sys2Proof.Machine.execForceClose p entry s
  | .resumeStream p entry => Sys2Proof.Machine.execResumeStream p entry s
  | .releaseEvent c => Sys2Proof.Machine.execReleaseEvent c s
  | .skeinReady k => Sys2Proof.Machine.execSkeinReady k s
  | .heldRelease c => Sys2Proof.Machine.execHeldRelease c s
  | .lateWindowExpiry c => Sys2Proof.Machine.execLateWindowExpiry c s
  | .dispatch k chk => Sys2Proof.Machine.execDispatch k chk s
  | .save k => Sys2Proof.Machine.execSave k s
  | .budgetExpiry k => Sys2Proof.Machine.execBudgetExpiry k s
  | .skeinAbort k => Sys2Proof.Machine.execSkeinAbort k s
  | .commit k => Sys2Proof.Machine.execCommit k s
  | .parkedCommitComplete q => Sys2Proof.Machine.execParkedCommitComplete q s
  | .adaptFrameBoundary choices => Sys2Proof.Machine.execAdaptFrameBoundary choices s
  | .spareReplacement k => Sys2Proof.Machine.execSpareReplacement k s
  | .spareReadbackEnd k match_ => Sys2Proof.Machine.execSpareReadbackEnd k match_ s
  | .stepForbid path v => Sys2Proof.Machine.execStepForbid path v s
  | .statReset path v => Sys2Proof.Machine.execStatReset path v s
  | .vopIssue k opc d a b e => Sys2Proof.Machine.execVopIssue k opc d a b e s
  | .vopStep k slot chk => Sys2Proof.Machine.execVopStep k slot chk s
  | .vopDone k slot => Sys2Proof.Machine.execVopDone k slot s
  | .vwait k rd slot => Sys2Proof.Machine.execVwait k rd slot s
  | .vwaitAll k => Sys2Proof.Machine.execVwaitAll k s
  | .vresume k => Sys2Proof.Machine.execVresume k s
  | .vdiscard k => Sys2Proof.Machine.execVdiscard k s
  | .mfc0 k rd cr h => Sys2Proof.Machine.execMfc0 k rd cr h s
  | .mtc0 k rs1 cr h => Sys2Proof.Machine.execMtc0 k rs1 cr h s
  | .hbmRequestService k e chk => Sys2Proof.Machine.execHbmRequestService k e chk s
  | .hbmFrameBoundary k => Sys2Proof.Machine.execHbmFrameBoundary k s
  | .hbmTempRead k temp => Sys2Proof.Machine.execHbmTempRead k temp s
  | .swap k => Sys2Proof.Machine.execSwap k s
  | .matrixAccess m addr size op => Sys2Proof.Machine.execMatrixAccess m addr size op s
  | .lockedSequence m addr beats op => Sys2Proof.Machine.execLockedSequence m addr beats op s
  | .lockBreak t => Sys2Proof.Machine.execLockBreak t s
  | .handover h v => Sys2Proof.Machine.execHandover h v s
  | .scrubFlagWrite h v => Sys2Proof.Machine.execScrubFlagWrite h v s
  | .scrubNow h => Sys2Proof.Machine.execScrubNow h s
  | .handoverBoundary h => Sys2Proof.Machine.execHandoverBoundary h s
  | .heldScrubStart h => Sys2Proof.Machine.execHeldScrubStart h s
  | .scrubEnd h => Sys2Proof.Machine.execScrubEnd h s
  | .hankPwr h req => Sys2Proof.Machine.execHankPwr h req s
  | .hankPowerTransitionEnd h => Sys2Proof.Machine.execHankPowerTransitionEnd h s
  | .owner path h v => Sys2Proof.Machine.execOwner path h v s
  | .fabricHoop path h v => Sys2Proof.Machine.execFabricHoop path h v s
  | .scrubOnHandover path h v => Sys2Proof.Machine.execScrubOnHandover path h v s
  | .enable path r v => Sys2Proof.Machine.execEnable path r v s
  | .pcRetired path hi v => Sys2Proof.Machine.execPcRetired path hi v s
  | .granOwn g v => Sys2Proof.Machine.execGranOwn g v s
  | .granuleZeroingEnd g => Sys2Proof.Machine.execGranuleZeroingEnd g s
  | .push m q item => Sys2Proof.Machine.execPush m q item s
  | .pop m q chk => Sys2Proof.Machine.execPop m q chk s
  | .mark m q => Sys2Proof.Machine.execMark m q s
  | .rewind m q => Sys2Proof.Machine.execRewind m q s
  | .release m q n => Sys2Proof.Machine.execRelease m q n s
  | .flush m q => Sys2Proof.Machine.execFlush m q s
  | .status m q => Sys2Proof.Machine.execStatus m q s
  | .create q => Sys2Proof.Machine.execCreate q s
  | .delete q => Sys2Proof.Machine.execDelete q s
  | .brokenSweepEnd q => Sys2Proof.Machine.execBrokenSweepEnd q s
  | .encreq r v => Sys2Proof.Machine.execEncreq r v s
  | .regionScrub r => Sys2Proof.Machine.execRegionScrub r s
  | .regionScrubEnd r => Sys2Proof.Machine.execRegionScrubEnd r s
  | .boot v => Sys2Proof.Machine.execBoot v s
  | .fciChange n v => Sys2Proof.Machine.execFciChange n v s
  | .frameReceive port f => Sys2Proof.Machine.execFrameReceive port f s
  | .timedLaunch port readLate => Sys2Proof.Machine.execTimedLaunch port readLate s
  | .untimedFrameStart port => Sys2Proof.Machine.execUntimedFrameStart port s
  | .modeReq path p v => Sys2Proof.Machine.execModeReq path p v s
  | .transitionStart p => Sys2Proof.Machine.execTransitionStart p s
  | .modeChanged p => Sys2Proof.Machine.execModeChanged p s
  | .partitionTableWrite path p sub bytes => Sys2Proof.Machine.execPartitionTableWrite path p sub bytes s
  | .patternCard path k bytes => Sys2Proof.Machine.execPatternCard path k bytes s
  | .cardFrameStart k => Sys2Proof.Machine.execCardFrameStart k s
  | .cardEntryStart k => Sys2Proof.Machine.execCardEntryStart k s
  | .replayContext path p v => Sys2Proof.Machine.execReplayContext path p v s
  | .integerAlu c w => Sys2Proof.Machine.execIntegerAlu c w s
  | .addi c op rd rs1 imm => Sys2Proof.Machine.execAddi c op rd rs1 imm s
  | .shli c kind h32 rd rs1 amt => Sys2Proof.Machine.execShli c kind h32 rd rs1 amt s
  | .liZ c rd h imm => Sys2Proof.Machine.execLiZ c rd h imm s
  | .liK c rd h imm => Sys2Proof.Machine.execLiK c rd h imm s
  | .addpc c rd imm => Sys2Proof.Machine.execAddpc c rd imm s
  | .mul c op rd rs1 rs2 => Sys2Proof.Machine.execMul c op rd rs1 rs2 s
  | .dqr c op rd rs1 rs2 => Sys2Proof.Machine.execDqr c op rd rs1 rs2 s
  | .dqrResult c => Sys2Proof.Machine.execDqrResult c s
  | .bfx c kind rd rs1 lenM1 pos => Sys2Proof.Machine.execBfx c kind rd rs1 lenM1 pos s
  | .permb c rd rs1 rs2 => Sys2Proof.Machine.execPermb c rd rs1 rs2 s
  | .branch c op rs1 rs2 disp => Sys2Proof.Machine.execBranch c op rs1 rs2 disp s
  | .jmp c disp => Sys2Proof.Machine.execJmp c disp s
  | .call c disp => Sys2Proof.Machine.execCall c disp s
  | .jr c rd rs1 imm => Sys2Proof.Machine.execJr c rd rs1 imm s
  | .skipCc c f => Sys2Proof.Machine.execSkipCc c f s
  | .ld c op rd rs1 seg off chk => Sys2Proof.Machine.execLd c op rd rs1 seg off chk s
  | .st c op rs rs1 seg off => Sys2Proof.Machine.execSt c op rs rs1 seg off s
  | .storeBufferWrite c => Sys2Proof.Machine.execStoreBufferWrite c s
  | .deviceLoadReturn c => Sys2Proof.Machine.execDeviceLoadReturn c s
  | .impreciseBusError c => Sys2Proof.Machine.execImpreciseBusError c s
  | .icacheRefill c => Sys2Proof.Machine.execIcacheRefill c s
  | .lr c dbl rd rs1 seg => Sys2Proof.Machine.execLr c dbl rd rs1 seg s
  | .sc c dbl rd rs1 rs2 seg => Sys2Proof.Machine.execSc c dbl rd rs1 rs2 seg s
  | .tas c rd rs1 seg => Sys2Proof.Machine.execTas c rd rs1 seg s
  | .repMov c rc ra rb sseg dseg size lock broken => Sys2Proof.Machine.execRepMov c rc ra rb sseg dseg size lock broken s
  | .repFill c rc ra rb sseg dseg size => Sys2Proof.Machine.execRepFill c rc ra rb sseg dseg size s
  | .repCmp c rc ra rb sseg dseg size => Sys2Proof.Machine.execRepCmp c rc ra rb sseg dseg size s
  | .repFind c rc ra rb sseg dseg size => Sys2Proof.Machine.execRepFind c rc ra rb sseg dseg size s
  | .sync c => Sys2Proof.Machine.execSync c s
  | .syncI c => Sys2Proof.Machine.execSyncI c s
  | .retx c => Sys2Proof.Machine.execRetx c s
  | .scall c => Sys2Proof.Machine.execScall c s
  | .brk c => Sys2Proof.Machine.execBrk c s
  | .wfi c => Sys2Proof.Machine.execWfi c s
  | .kend c => Sys2Proof.Machine.execKend c s
  | .kabort c => Sys2Proof.Machine.execKabort c s
  | .mfsr c rd sr => Sys2Proof.Machine.execMfsr c rd sr s
  | .mtsr c rs1 sr => Sys2Proof.Machine.execMtsr c rs1 sr s
  | .floatingPoint c k dbl rd rs1 rs2 => Sys2Proof.Machine.execFloatingPoint c k dbl rd rs1 rs2 s
  | .ffma c kind dbl rd rs1 rs2 rs3 => Sys2Proof.Machine.execFfma c kind dbl rd rs1 rs2 rs3 s
  | .fpResult c rd => Sys2Proof.Machine.execFpResult c rd s
  | .shortVectorAlu c func sat vd va vb => Sys2Proof.Machine.execShortVectorAlu c func sat vd va vb s
  | .shortVectorMultiply c func qshift sat vd va vb => Sys2Proof.Machine.execShortVectorMultiply c func qshift sat vd va vb s
  | .vld c vd rs1 seg off => Sys2Proof.Machine.execVld c vd rs1 seg off s
  | .vst c vd rs1 seg off => Sys2Proof.Machine.execVst c vd rs1 seg off s
  | .vldx c vd rs1 seg ix => Sys2Proof.Machine.execVldx c vd rs1 seg ix s
  | .vstx c vd rs1 seg ix => Sys2Proof.Machine.execVstx c vd rs1 seg ix s
  | .setvl c rd rs1 ty ply => Sys2Proof.Machine.execSetvl c rd rs1 ty ply s
  | .qpush c rd rq rs2 seg => Sys2Proof.Machine.execQpush c rd rq rs2 seg s
  | .qpop c rd rq rs2 seg chk => Sys2Proof.Machine.execQpop c rd rq rs2 seg chk s
  | .qmark c rd rq => Sys2Proof.Machine.execQmark c rd rq s
  | .qrewind c rd rq => Sys2Proof.Machine.execQrewind c rd rq s
  | .qrelease c rd rq rs2 seg => Sys2Proof.Machine.execQrelease c rd rq rs2 seg s
  | .qflush c rd rq => Sys2Proof.Machine.execQflush c rd rq s
  | .qstat c rd rq => Sys2Proof.Machine.execQstat c rd rq s
  | .ckrd k rd => Sys2Proof.Machine.execCkrd k rd s
  | .ckwr k rs1 => Sys2Proof.Machine.execCkwr k rs1 s
  | .ckpoly k poly => Sys2Proof.Machine.execCkpoly k poly s
  | .ckupd k rs1 nM1 => Sys2Proof.Machine.execCkupd k rs1 nM1 s
  | .ckalive k rd rs1 => Sys2Proof.Machine.execCkalive k rd rs1 s
  | .interruptDelivery c => Sys2Proof.Machine.execInterruptDelivery c s
  | .l1HoldoffExpiry w g => Sys2Proof.Machine.execL1HoldoffExpiry w g s
  | .l1Set w v => Sys2Proof.Machine.execL1Set w v s
  | .l1Clr w v => Sys2Proof.Machine.execL1Clr w v s
  | .l1Evt w => Sys2Proof.Machine.execL1Evt w s
  | .claim k => Sys2Proof.Machine.execClaim k s
  | .complete k n => Sys2Proof.Machine.execComplete k n s
  | .l2Set w v => Sys2Proof.Machine.execL2Set w v s
  | .l2HoldoffExpiry g => Sys2Proof.Machine.execL2HoldoffExpiry g s
  | .msixUnmask f vec => Sys2Proof.Machine.execMsixUnmask f vec s
  | .arm h ch v => Sys2Proof.Machine.execArm h ch v s
  | .background h ch v => Sys2Proof.Machine.execBackground h ch v s
  | .disarm h ch v => Sys2Proof.Machine.execDisarm h ch v s
  | .listStart h ch => Sys2Proof.Machine.execListStart h ch s
  | .descriptorComplete h ch => Sys2Proof.Machine.execDescriptorComplete h ch s
  | .shuttleHalt h ch chk => Sys2Proof.Machine.execShuttleHalt h ch chk s
  | .shuttleStop h ch => Sys2Proof.Machine.execShuttleStop h ch s
  | .shuttleResume h ch => Sys2Proof.Machine.execShuttleResume h ch s
  | .shuttleSkip h ch => Sys2Proof.Machine.execShuttleSkip h ch s
  | .shuttleAbandon h ch => Sys2Proof.Machine.execShuttleAbandon h ch s
  | .tbFreq v => Sys2Proof.Machine.execTbFreq v s
  | .tbSlew v => Sys2Proof.Machine.execTbSlew v s
  | .slewEnd => Sys2Proof.Machine.execSlewEnd s
  | .stepTb => Sys2Proof.Machine.execStepTb s
  | .ppsIn level => Sys2Proof.Machine.execPpsIn level s
  | .ppsOutRise => Sys2Proof.Machine.execPpsOutRise s
  | .ppsOutFall => Sys2Proof.Machine.execPpsOutFall s
  | .timerTick p n => Sys2Proof.Machine.execTimerTick p n s
  | .immediate p n v => Sys2Proof.Machine.execImmediate p n v s
  | .tmCnt p n v => Sys2Proof.Machine.execTmCnt p n v s
  | .tmbStart p v => Sys2Proof.Machine.execTmbStart p v s
  | .tmbAtReached p => Sys2Proof.Machine.execTmbAtReached p s
  | .vfFlr p => Sys2Proof.Machine.execVfFlr p s
  | .pfFlr => Sys2Proof.Machine.execPfFlr s
  | .hdmCommit d base count => Sys2Proof.Machine.execHdmCommit d base count s
  | .cxlMemAccess addr op => Sys2Proof.Machine.execCxlMemAccess addr op s
  | .ringEnable p r v => Sys2Proof.Machine.execRingEnable p r v s
  | .ringPi p r v => Sys2Proof.Machine.execRingPi p r v s
  | .ringCi p r v => Sys2Proof.Machine.execRingCi p r v s
  | .qcreate p entry => Sys2Proof.Machine.execQcreate p entry s
  | .qdelete p entry => Sys2Proof.Machine.execQdelete p entry s
  | .qgroup p entry => Sys2Proof.Machine.execQgroup p entry s
  | .qnote p entry => Sys2Proof.Machine.execQnote p entry s
  | .qmsix p entry => Sys2Proof.Machine.execQmsix p entry s
  | .qegress p entry => Sys2Proof.Machine.execQegress p entry s
  | .pricking p entry => Sys2Proof.Machine.execPricking p entry s
  | .ruleAdd p entry => Sys2Proof.Machine.execRuleAdd p entry s
  | .ruleDel p entry => Sys2Proof.Machine.execRuleDel p entry s
  | .l1cfg p entry => Sys2Proof.Machine.execL1cfg p entry s
  | .spindleDoorbell p k => Sys2Proof.Machine.execSpindleDoorbell p k s
  | .mailboxRead f idx sub => Sys2Proof.Machine.execMailboxRead f idx sub s
  | .mailboxWrite f idx sub bytes => Sys2Proof.Machine.execMailboxWrite f idx sub bytes s
  | .zmpFrameReceive f => Sys2Proof.Machine.execZmpFrameReceive f s
  | .read src seq idx sub => Sys2Proof.Machine.execRead src seq idx sub s
  | .write src seq idx sub bytes => Sys2Proof.Machine.execWrite src seq idx sub bytes s
  | .blockRead src seq idx sub off len => Sys2Proof.Machine.execBlockRead src seq idx sub off len s
  | .blockWrite src seq idx sub off total bytes => Sys2Proof.Machine.execBlockWrite src seq idx sub off total bytes s
  | .blockSessionTimeout src => Sys2Proof.Machine.execBlockSessionTimeout src s
  | .start via => Sys2Proof.Machine.execStart via s
  | .stop via => Sys2Proof.Machine.execStop via s
  | .enterPreop via => Sys2Proof.Machine.execEnterPreop via s
  | .resetNode via => Sys2Proof.Machine.execResetNode via s
  | .resetComm via => Sys2Proof.Machine.execResetComm via s
  | .detach via => Sys2Proof.Machine.execDetach via s
  | .assignOffer session addr => Sys2Proof.Machine.execAssignOffer session addr s
  | .assignResponse => Sys2Proof.Machine.execAssignResponse s
  | .assignConfirm session addr => Sys2Proof.Machine.execAssignConfirm session addr s
  | .assignAcknowledgement => Sys2Proof.Machine.execAssignAcknowledgement s
  | .chainIn level => Sys2Proof.Machine.execChainIn level s
  | .plcaBeacon => Sys2Proof.Machine.execPlcaBeacon s
  | .plcaTimeout => Sys2Proof.Machine.execPlcaTimeout s
  | .transmitOpportunity id => Sys2Proof.Machine.execTransmitOpportunity id s
  | .emcyRepeat code => Sys2Proof.Machine.execEmcyRepeat code s
  | .emcyAck path code => Sys2Proof.Machine.execEmcyAck path code s
  | .notify slot => Sys2Proof.Machine.execNotify slot s
  | .heartbeat => Sys2Proof.Machine.execHeartbeat s
  | .store path bytes verified => Sys2Proof.Machine.execStore path bytes verified s
  | .restoreDefaults path bytes => Sys2Proof.Machine.execRestoreDefaults path bytes s
  | .go path k v => Sys2Proof.Machine.execGo path k v s
  | .powerOnReset level => Sys2Proof.Machine.execPowerOnReset level s
  | .brownOut rail => Sys2Proof.Machine.execBrownOut rail s
  | .resetN level => Sys2Proof.Machine.execResetN level s
  | .perstN level => Sys2Proof.Machine.execPerstN level s
  | .startup inp => Sys2Proof.Machine.execStartup inp s
  | .initEnd => Sys2Proof.Machine.execInitEnd s
  | .resetPartition path v => Sys2Proof.Machine.execResetPartition path v s
  | .spindleReset w => Sys2Proof.Machine.execSpindleReset w s
  | .positionPower w off => Sys2Proof.Machine.execPositionPower w off s
  | .positionBist w => Sys2Proof.Machine.execPositionBist w s
  | .outOfService k => Sys2Proof.Machine.execOutOfService k s
  | .standby path => Sys2Proof.Machine.execStandby path s
  | .standbyExit path => Sys2Proof.Machine.execStandbyExit path s
  | .supplyWarning rail => Sys2Proof.Machine.execSupplyWarning rail s
  | .supplyRecovery rail => Sys2Proof.Machine.execSupplyRecovery rail s
  | .holdoffEnd => Sys2Proof.Machine.execHoldoffEnd s
  | .temperatureSample temps => Sys2Proof.Machine.execTemperatureSample temps s
  | .kick k => Sys2Proof.Machine.execKick k s
  | .watchdogExpiry k => Sys2Proof.Machine.execWatchdogExpiry k s
  | .fatalRecordWrite => Sys2Proof.Machine.execFatalRecordWrite s
  | .errClear path key => Sys2Proof.Machine.execErrClear path key s
  | .recordClear path key => Sys2Proof.Machine.execRecordClear path key s
  | .testGo path v => Sys2Proof.Machine.execTestGo path v s
  | .liveTestEnd unit inst pass detail => Sys2Proof.Machine.execLiveTestEnd unit inst pass detail s
  | .liveTestRound => Sys2Proof.Machine.execLiveTestRound s
  | .mcodePatch path bytes => Sys2Proof.Machine.execMcodePatch path bytes s
  | .rcFieldRead m addr => Sys2Proof.Machine.execRcFieldRead m addr s
  | .registerWrite m addr size v => Sys2Proof.Machine.execRegisterWrite m addr size v s
  | .pllLostLock pll => Sys2Proof.Machine.execPllLostLock pll s
  | .dieToDieLinkFailure link => Sys2Proof.Machine.execDieToDieLinkFailure link s
  | .hbmStackFailure k => Sys2Proof.Machine.execHbmStackFailure k s
  | .recoveredClockFailure => Sys2Proof.Machine.execRecoveredClockFailure s
  | .ethernetLinkChange port up => Sys2Proof.Machine.execEthernetLinkChange port up s
  | .pcieLinkChange width speed mode => Sys2Proof.Machine.execPcieLinkChange width speed mode s
  | .cxlHostSnoop k addr => Sys2Proof.Machine.execCxlHostSnoop k addr s
  | .hostReadCompletion tag data => Sys2Proof.Machine.execHostReadCompletion tag data s

end Sys2Proof.Machine
end

