-- ==== Sys2Proof/Machine/Tick.lean ====
section
/-! DEFINITION. What one TIME nanosecond does of itself (01 R37, R38, 02 R84, 04 R152, 12 R372, R379, 14 R405, R408). It is
what step does when no command waits. -/

namespace Sys2Proof.Machine
open Sys2Proof

/-- A running skein's budget counter falls and its use counts over n CORE cycles (R84, R95). Nothing moves once its KEND has
completed, but for the wait for its last trace unit (waits), which counts as kernel time (07 R258). -/
def Disp.tick (n : Nat) (waits : Bool) (d : Disp) : Disp :=
  if d.ending && !waits then d
  else { d with running := d.running.map fun (x : Skein) =>
      { x with budget := x.budget - n, past := x.past + (n - x.budget), cycles := x.cycles + n } }

/-- The skein of spindle k has a trace unit that is not acknowledged (07 R258). -/
def State.skeinTraces (s : State) (k : Nat) : Bool :=
  match (s.disp k).running with
  | some x => s.traceWaits k x.ctx
  | none => false

/-- The hold-off counters of a level 1 controller fall over n CORE cycles (R372). -/
def L1.tick (n : Nat) (x : L1) : L1 :=
  { x with remain := (x.remain.map fun (e : Nat × Nat) => (e.1, e.2 - n)).filter fun e => e.2 ≠ 0 }

/-- The hold-off counters of level 2 fall by a nanosecond (R379). -/
def L2.tick (x : L2) : L2 :=
  { x with remain := (x.remain.map fun (e : Nat × Nat) => (e.1, e.2 - 1)).filter fun e => e.2 ≠ 0 }

/-- A nanosecond of a slew (R408): SLEWRATE millionths of it are absorbed, and a whole one moves the remainder toward 0. -/
def Timebase.slewTick (t : Timebase) : Timebase :=
  if !t.slewing || t.slew = 0 then t
  else
    let x := t.slewPart + t.slewRate.toNat
    if x < 1000000 then { t with slewPart := x }
    else { t with slewPart := x - 1000000, slew := if t.slew < 0 then t.slew + 1 else t.slew - 1 }

/-- The clocks after a nanosecond: u counts from the good end of STARTUP on, when the hoops leave reset (04 R152; which point of
start-up that is Table 17-3 does not say: DESIGN CHOICE, log entry 138). -/
def State.clockTick (s : State) : Clock :=
  { s.clock with
    cycles := s.clock.cycles + 1
    phase := if s.rst.tripped then s.clock.phase else (min s.clock.phase (s.coreLen - 1) + 24) % s.coreLen
    u := if s.rst.started then s.clock.u + s.coreCycles else s.clock.u
    frames := if s.time.next.toNat % max s.adaptFrame 1 = 0 then s.clock.frames + 1 else s.clock.frames }

/-- Clocks and counters over one TIME cycle. -/
def State.count (s : State) : State :=
  let n := s.coreCycles
  let c := s.clockTick
  { s with
    clock := c
    time := { s.time.slewTick with tb := s.time.next, stepping := false }
    disps := s.disps.map fun (e : Nat × Disp) => (e.1, e.2.tick n (s.skeinTraces e.1))
    cores := s.cores.foldl (fun t e =>
      if e.2.results.any fun r => r.due.isSome then tabSet (Core.init e.1) t e.1 (e.2.landCp2 c.u) else t) s.cores
    l1s := (s.l1s.map fun (e : Nat × L1) => (e.1, e.2.tick n)).filter fun e => e.2 ≠ {}
    l2 := if s.l2.pend = [] && s.l2.sel = [] then s.l2.tick else { s.l2.tick with sel := s.l2Record } }

/-- What TB's new value starts: the timer channels a step jumped past (R410), then those whose TMB_AT it equals (R422). -/
def State.reach (s : State) (old : State) : State :=
  (if old.time.stepping then s.stepPast old.now else s).timersReach

/-- One TIME cycle with no command: the ticks that fell in it have their effect, the clocks move, resets and power-ons of
positions end, a spare takes its place, the next
ZMP request that no command executes ends, the governor's PTP may give a frame, and what waits for Throughput service, for a
scratch read of the egress
scheduler or for the flash may be served; while PWROK is low nothing moves. -/
def State.tick (s : State) : State :=
  if s.rst.pwrLow || s.rst.held then s else (s.timersFall.count.reach s).posTick.spareTick.rxTurn.storeTick.traceTick.egressReads.govFrames

end Sys2Proof.Machine
end

