-- ==== Sys2Proof/Machine/Timing.lean ====
section
/-! DEFINITION. The exact counts of the manual, as functions (04 R150 to R170, 05 R206, 09 R301 to R318). The commands of the
block are the events themselves, so no command consumes these counts: they say how many cycles the hardware takes between
events. -/

namespace Sys2Proof.Machine
open Sys2Proof

/-! ## The whorl (R152, R156) -/

/-- The hank count t, which does not advance in a fabric cycle (R156). -/
def hankCount (u : Nat) : Nat := 8 * (u / 9) + u % 9

/-- Cycle u is a fabric cycle of a hank that has them (R156). -/
def fabricCycle (u : Nat) : Bool := u % 9 = 8

/-- The hoop-local index that bank group g of a hank serves in cycle u (R152, R156): a local spindle, or the spindle of the
fabric hoop in a fabric cycle. -/
def grantedTo (fabric : Bool) (u g : Nat) : Nat :=
  if !fabric then (g + 8 - u % 8) % 8
  else if fabricCycle u then (g + 8 - u / 9 % 8) % 8
  else (g + 8 - hankCount u % 8) % 8

/-- First-block wait of a source in its own hoop (R153): local index k, first bank group g, uS at the start cycle. -/
def firstWait (k g uS : Nat) : Nat := (g + 16 - k % 8 - uS % 8) % 8

/-- Transfer cycles over the bank groups of successive blocks (R153). -/
def transferCycles : List Nat → Nat
  | [] => 0
  | [_] => 1
  | g :: h :: r => (h + 8 - g % 8 - 1) % 8 + 1 + transferCycles (h :: r)

/-- Budget value of the transfer cycles of each of n operands that share a hank (R155). -/
def sharedTransfer (kMax n : Nat) : Nat := ceilDiv kMax 8 * 15 * n

/-- Transfer cycles of a local operand in a hank with fabric cycles (Table 4-4): p is u mod 9 at its first block. -/
def fabricTransfer (k p : Nat) : Nat := k + (p + k - 1) / 8

/-- Transfer cycles of a remote operand (Table 4-4). -/
def remoteTransfer (k : Nat) : Nat := 9 * (k - 1) + 1

/-- Path latency L of a source: own hoop, remote on the same die, remote on the other die (Table 4-4). -/
def pathLatency (remote otherDie : Bool) : Nat := if !remote then 0 else if otherDie then 56 else 24

/-! ## Pipes (Table 4-5) -/

/-- Pipe latency P and the step rate, as steps per cycle n / d, of an operation on a destination type. -/
def pipeOf (opc ty : Nat) : Option (Nat × Nat × Nat) :=
  let flt := tyFlt ty || tyCpxFlt ty
  let wide := ty = 6 || ty = 7
  let cpx := tyCpx ty
  match opc with
  | 0x001 | 0x002 | 0x007 | 0x008 | 0x009 | 0x00A => some (if flt then 12 else 9, 1, 1)
  | 0x003 | 0x004 | 0x005 | 0x006 => some (if wide then (20, 1, 4) else (14, 1, 1))
  | 0x00B => some (11, 1, 1)
  | 0x00C | 0x00D | 0x00E => some (9, 1, 1)
  | 0x020 | 0x021 | 0x022 | 0x023 => some (18, 1, 2)
  | 0x030 | 0x031 => some (if cpx then (18, 1, 2) else (14, 1, 1))
  | 0x038 | 0x039 => some (16, 1, 1)
  | 0x040 | 0x041 | 0x042 | 0x043 | 0x044 | 0x045 | 0x046 => some (10, 1, 1)
  | 0x050 | 0x051 | 0x052 | 0x053 | 0x054 => some (10, 1, 1)
  | 0x058 | 0x059 | 0x05A | 0x05B | 0x05C | 0x05D => some (8, 1, 1)
  | 0x060 | 0x061 | 0x068 | 0x069 => some (12, 1, 1)
  | 0x070 | 0x071 | 0x072 | 0x073 => some (9, 1, 1)
  | 0x078 => some (24, 1, 1)
  | 0x079 => some (30, 2, 3)
  | 0x080 | 0x081 => some (22, 1, 1)
  | 0x088 => some (2, 1, 1)
  | 0x089 => some (6, 1, 1)
  | 0x08A => some (8, 1, 1)
  | 0x08B => some (6, 1, 1)
  | _ => none

/-- Where a VOP's output goes (Table 4-6). -/
inductive DrainTo where
  | scratch (remote otherDie : Bool)
  | tap
  | reduction (remote otherDie : Bool)
  | queue
deriving DecidableEq, Repr

/-- The drain Dr (Table 4-6). -/
def drainCycles : DrainTo → Nat
  | .scratch false _ => 4
  | .scratch true false => 16
  | .scratch true true => 40
  | .tap => 2
  | .reduction false _ => 16
  | .reduction true false => 28
  | .reduction true true => 52
  | .queue => 40

/-- The closed form C = I + A + P + N + Dr of R150, with I = 3. -/
def vopCount (a p n dr : Nat) : Nat := 3 + a + p + n + dr

/-! ## HBM and queues (R162 to R165) -/

/-- TH in ns (R164): gh groups, nmin octets per frame. -/
def hbmBound (gh nmin : Nat) : Nat := ceilDiv (gh + 31) 32 * ceilDiv 32 nmin * 1024 + 8

/-- A time in ns at step 0, in CORE cycles rounded up (R53, R164). -/
def nsCycles0 (ns : Nat) : Nat := ceilDiv (ns * 8) 5

/-- H of R164: request latency, TH and return latency, in the budget values of Table 4-7. -/
def hbmLatency (far : Bool) (gh nmin : Nat) : Nat :=
  (if far then 33 else 13) + nsCycles0 (hbmBound gh nmin) + (if far then 33 else 13)

/-- The count of a VOP with HBM sources (R164). -/
def hbmCount (a n h p dr : Nat) : Nat := 3 + max (a + n) (h + 8) + p + dr

/-- Transfer cycles of a queue stream: 2 a item, 3 in a SECDED region (R165, Table 4-8). -/
def queueTransfer (secded : Bool) (vlen : Nat) : Nat := (if secded then 3 else 2) * vlen

/-! ## Shuttle lists (13 R397, R398, Table 13-3) -/

/-- Ls and Ns of a source, or Wd with Nd and Ld of a destination, in CORE cycles; an HBM side gives its return latency in ls or
ld and TH in ns in th, and 0 elsewhere. -/
structure ShTerms where
  (f ls ns wd nd ld th : Nat)
deriving DecidableEq, Repr

/-- The CORE terms of one descriptor: F + Ls + max(Ns, Nd) + Wd + Ld (R397). -/
def ShTerms.cycles (x : ShTerms) : Nat := x.f + x.ls + max x.ns x.nd + x.wd + x.ld

/-- A remote side: 9 × (K − 1) + 1 cycles for K blocks; a queue side: 320 × (items − 1) + 1. -/
def shRemote (blocks : Nat) : Nat := 9 * (blocks - 1) + 1
def shItems (items : Nat) : Nat := 320 * (items - 1) + 1

/-- A side of a descriptor (Table 13-3): own-hoop hank, remote hank on the same or the other die, queue. -/
inductive ShSide where
  | ownHoop
  | remote (otherDie : Bool)
  | queue (secded : Bool)
deriving DecidableEq, Repr

/-- The source terms Ls and Ns (Table 13-3) of n own-hoop transfer cycles, blocks or items. -/
def shSource (side : ShSide) (n : Nat) : Nat × Nat :=
  match side with
  | .ownHoop => (11, n)
  | .remote otherDie => (if otherDie then 127 else 95, shRemote n)
  | .queue secded => (if secded then 346 else 345, shItems n)

/-- The destination terms Wd, Nd and Ld (Table 13-3). -/
def shDest (side : ShSide) (n : Nat) : Nat × Nat × Nat :=
  match side with
  | .ownHoop => (7, n, 4)
  | .remote otherDie => (71, shRemote n, if otherDie then 40 else 16)
  | .queue secded => (319, shItems n, if secded then 27 else 26)

/-- The count of a list in ns (R398): 8 cycles to the first fetch, the descriptors, 4 cycles at the end, at 2.5 ns a cycle,
each TH in ns, rounded up. -/
def shuttleTime (l : List ShTerms) : Nat :=
  ceilDiv ((12 + (l.map ShTerms.cycles).sum) * 5 + 2 * (l.map ShTerms.th).sum) 2

/-! ## Controller instructions (R304, R305, Tables 9-2 to 9-4) -/

/-- q of R304, from the magnitudes in a width of w bits. -/
def dqrSteps (w dividend divisor : Nat) : Nat :=
  if divisor = 0 || dividend < divisor then 0 else clzNat w divisor - clzNat w dividend + 1

/-- Result latency of a DQR form of w bits (R304): constant under ST.CT. -/
def dqrLatency (w : Nat) (ct : Bool) (dividend divisor : Nat) : Nat :=
  if ct then (if w = 64 then 36 else 20) else 4 + ceilDiv (dqrSteps w dividend divisor) 2

/-- Result latency of FDIV and FSQRT (Table 9-4, R305): early: an operand is zero, infinite, NaN or flushed, or FSQRT's is
negative. -/
def fdivLatency (sqrt dbl ct early : Bool) : Nat :=
  if early && !ct then 4
  else if sqrt then (if dbl then 32 else 16) else (if dbl then 28 else 14)

/-- Cycles of a branch (Table 9-3). -/
def branchCycles (taken : Bool) : Nat := if taken then 4 else 1

/-- Stall of a load that overlaps store buffer entries without being contained (R311): position and earlier loads. -/
def loadStall (p b : Nat) : Nat := p + b

/-- Largest slot wait on the control matrix (Table 5-15): D, PCIE and DBG ports, or HC and HS ports. -/
def slotWaitMax (spindlePort : Bool) : Nat := if spindlePort then 319 else 39

end Sys2Proof.Machine
end

