-- ==== Sys2Proof/Safety.lean ====
section
/-! DEFINITION. What a sound state and a safe step are, in the terms statements use. -/

namespace Sys2Proof.Machine
open Sys2Proof

/-- The memory is in its canonical form: addresses strictly rising, and no listed byte equal to what an unlisted address
reads as. -/
abbrev Memory.wf (m : List Host.Cell) : Bool := tabWf memDflt m

/-! ## What an instruction of a core may change -/

/-- Of the whole device only core c differs. -/
def onlyCore (c : Nat) (s t : State) : Prop := t = { s with cores := t.cores } ∧ ∀ j, j ≠ c → t.core j = s.core j

/-- Of the whole device only general registers and the PC of core c differ from the state in which the instruction has
its effect. -/
def onlyRegs (c : Nat) (s t : State) : Prop :=
  onlyCore c s t ∧
  t.core c = { (s.begun c).core c with cpu := { (s.begun c).cpu c with g := (t.cpu c).g, pc := (t.cpu c).pc } }

/-- Core c is at pc, and its general registers hold what f says; g0 reads 0 as before (08 R266). -/
def coreAt (c : Nat) (pc : DWord) (f : RegId → DWord) (t : State) : Prop :=
  t.pc c = pc ∧ ∀ r, t.g c r = if r = 0 then 0 else f r

/-- rd holds v, the other general registers what they held, the PC is at the next instruction, and nothing else of the
device has changed. -/
def wrote (c : Nat) (rd : RegId) (v : DWord) (s t : State) : Prop :=
  onlyRegs c s t ∧ coreAt c (s.pc c + 4) (fun r => if r = rd then v else s.g c r) t

/-- rd and rd + 1 hold a pair (08 R278). -/
def wrotePair (c : Nat) (rd : RegId) (lo hi : DWord) (s t : State) : Prop :=
  onlyRegs c s t ∧ coreAt c (s.pc c + 4) (fun r => if r = rd then lo else if r = rd + 1 then hi else s.g c r) t

/-- The PC of core c is at a, and nothing else of the device has changed. -/
def jumped (c : Nat) (a : DWord) (s t : State) : Prop := onlyRegs c s t ∧ coreAt c a (s.g c) t

/-- Of the whole device only core c differs, and it is what f makes of the core in which the instruction has its
effect. -/
def ranTo (c : Nat) (f : Core → Core) (s t : State) : Prop := onlyCore c s t ∧ t.core c = f ((s.begun c).core c)

/-- The instruction at PC raises exception code with EADDR eaddr (12 R358): the state is that of taking it. -/
def trapped (c code : Nat) (eaddr : DWord) (s t : State) : Prop :=
  t = (s.begun c).takeException c code (s.pc c) eaddr

/-- What a load of each form writes for the bytes it has read (08 R284). -/
def loadedValue (op : LdOp) (l : List Byte) : DWord :=
  let x := natOfBytes l
  match op with
  | .b => (BitVec.ofNat 8 x).signExtend 64
  | .h => (BitVec.ofNat 16 x).signExtend 64
  | .w => (BitVec.ofNat 32 x).signExtend 64
  | .bu => (BitVec.ofNat 8 x).setWidth 64
  | .hu => (BitVec.ofNat 16 x).setWidth 64
  | .wu => (BitVec.ofNat 32 x).setWidth 64
  | .d => BitVec.ofNat 64 x

/-- The end of one element of a REP on core c, from the state after its accesses (08 R287): the count moves by 1 toward 0 and
the offsets by n, both in the direction of the count's sign, and the PC leaves when the count has reached 0. -/
def repStepped (c : Nat) (rc : RegId) (walk : List RegId) (n : Nat) (s t : State) : Prop :=
  let cnt := s.g c rc
  let up : Bool := decide (0 < cnt.toInt)
  let left : DWord := if up then cnt - 1 else cnt + 1
  onlyCore c s t ∧
  t.core c = { s.core c with cpu := { s.cpu c with g := (t.cpu c).g, pc := (t.cpu c).pc } } ∧
  coreAt c (if left = 0 then s.pc c + 4 else s.pc c)
    (fun r => if r = rc then left
      else if r ∈ walk then (if up then s.g c r + BitVec.ofNat 64 n else s.g c r - BitVec.ofNat 64 n)
      else s.g c r) t

/-- The pop record and LEN of what a pop gave, 0 when nothing was unread (08 Table 8-18). -/
def popWord (r : Option (QItem × Bool)) : Nat := match r with | some (i, p) => (popRecord i p).toNat | none => 0
def popLen (r : Option (QItem × Bool)) : Nat := match r with | some (i, _) => i.len | none => 0

/-- The flags of the rows of a VOP's step. -/
def rowFlags (rows : List (Nat × VRow)) : Nat :=
  rows.foldl (fun f r => match r.2 with | .out _ _ g => orF f g | .note g => orF f g | _ => f) 0

/-- A step answers a next state: neither a fault nor a refusal ends the run. -/
def goesOn (o : Host.Outcome State Fault Refusal) : Bool :=
  match o with
  | .next _ => true
  | .fault _ => false
  | .refused _ => false

/-! ## Accesses to the object dictionary (15 R442, R443; 16 R469) -/

/-- Governor firmware performs an access made through a path: after INIT and not in FAULT, with a distaff core running, for an
addressed device on ZMP and with a mailbox that is not busy on PCIe. -/
def State.serves (s : State) (path : Path) : Bool :=
  s.node ≠ .init && s.node ≠ .fault && decide (0 < s.distaffRunning) && !s.inReset &&
    (match path with
      | .zmp => s.node ≠ .unaddressed && s.mgmt.addr ≠ 0
      | .pf => !s.rst.perstLow && !(s.mailbox .pf).busy
      | .vf p => !s.rst.perstLow && !(s.mailbox (.vf p)).busy)

/-- The path may write every entry: it is no virtual function's. -/
def widePath : Path → Bool
  | .vf _ => false
  | _ => true

/-- The access made through a path has ended with an abort code, 0 for none. -/
def answered (path : Path) (code : Nat) (t : State) : Prop :=
  match path with
  | .zmp => t.resp = if code = 0 then .data [] else .abort code
  | .pf => (t.mailbox .pf).busy = false ∧ (t.mailbox .pf).done = true ∧ (t.mailbox .pf).abort = BitVec.ofNat 32 code
  | .vf p => (t.mailbox (.vf p)).busy = false ∧ (t.mailbox (.vf p)).done = true ∧
      (t.mailbox (.vf p)).abort = BitVec.ofNat 32 code

/-- The value of a dictionary entry that is state of its own changes to v, and no other does. -/
def entrySet (idx sub v : Nat) (s t : State) : Prop :=
  t.dget idx sub = v ∧ ∀ i j, j < 256 → (i, j) ≠ (idx, sub) → t.dget i j = s.dget i j

/-- A range of memory reads as a function of its addresses, and every other byte as before. -/
def memBecomes (a n : Nat) (f : Nat → Byte) (s t : State) : Prop :=
  (∀ i, i < n → t.byte (a + i) = f i) ∧ ∀ x, x < a ∨ a + n ≤ x → t.byte x = s.byte x

end Sys2Proof.Machine
end

