-- ==== Sys2Proof/Certificates/Slice0/Obligations.lean ====
section
/-! DEFINITION. What is stated of the model, in the terms of Safety.lean. A statement about an instruction of a core assumes
that it issues (State.issues: the core runs, no hazard holds it, it is not skipped and its fetch succeeds) and says what
the core and the rest of the device hold after it. -/

open Sys2Proof Sys2Proof.Machine

/-! ## The queue of commands -/

/-- A step of a state with command c at the front of its queue is exec of c on the state with the rest of the queue. -/
def Obligations.StepRunsFrontCommand : Prop :=
  ∀ (c : Instr) (rest : List Instr) (s : State), step { s with pending := c :: rest } = exec c { s with pending := rest }

/-! ## Parsal: integer instructions and control transfer (08) -/

/-- Table 8-8: each function code of major 0x00 writes its function of rs1 and rs2 to rd; CLZ and CLZ32 name rs2 = g0. -/
def Obligations.IntegerAluWritesTable : Prop :=
  ∀ (s : State) (c : CoreId) (rd rs1 rs2 : RegId) (func : Nat) (v : DWord),
    s.issues c [rd, rs1, rs2] = true →
    (let a := s.g c rs1
     let b := s.g c rs2
     (func, v) ∈
      [(0x00, a + b), (0x01, a - b), (0x02, a &&& b), (0x03, a ||| b), (0x04, a ^^^ b), (0x05, a &&& ~~~b),
       (0x06, if a.toInt < b.toInt then BitVec.allOnes 64 else 0), (0x07, if a.toNat < b.toNat then BitVec.allOnes 64 else 0),
       (0x08, a <<< (b.toNat % 64)), (0x09, a >>> (b.toNat % 64)), (0x0A, a.sshiftRight (b.toNat % 64)),
       (0x0B, a.rotateRight (b.toNat % 64)),
       (0x0C, BitVec.ofNat 64 ((a.toNat + b.toNat) % 2 ^ 32)),
       (0x0D, ((a.setWidth 32 - b.setWidth 32 : BitVec 32)).setWidth 64),
       (0x0E, ((a.setWidth 32 : BitVec 32) <<< (b.toNat % 32)).setWidth 64),
       (0x0F, ((a.setWidth 32 : BitVec 32) >>> (b.toNat % 32)).setWidth 64),
       (0x10, ((a.setWidth 32 : BitVec 32).sshiftRight (b.toNat % 32)).setWidth 64),
       (0x11, if a.toInt < b.toInt then a else b), (0x12, if b.toInt < a.toInt then a else b),
       (0x13, if a.toNat < b.toNat then a else b), (0x14, if b.toNat < a.toNat then a else b)] ∨
      (rs2 = 0 ∧ func = 0x18 ∧ v = BitVec.ofNat 64 (clzNat 64 a.toNat)) ∨
      (rs2 = 0 ∧ func = 0x19 ∧ v = BitVec.ofNat 64 (clzNat 32 (a.toNat % 2 ^ 32))) ∨
      (func = 0x1A ∧ v = permb a b)) →
    ∃ t, exec (.integerAlu c (wReg 0 rd rs1 rs2 0 func)) s = .next t ∧ wrote c rd v s t

/-- R277, R279, R280: what the immediate forms, LI.Z, LI.K and ADDPC write to rd; the shifts by an immediate, the bit-field
instructions and PERMB. -/
def Obligations.ImmediatesShiftsAndFields : Prop :=
  (∀ (s : State) (c : CoreId) (rd rs1 : RegId) (imm : Half) (imm21 : BitVec 21) (h : BitVec 2),
     (s.issues c [rd, rs1] = true →
       (∃ t, exec (.addi c .addi rd rs1 imm) s = .next t ∧ wrote c rd (s.g c rs1 + imm.signExtend 64) s t) ∧
       (∃ t, exec (.addi c .andi rd rs1 imm) s = .next t ∧ wrote c rd (s.g c rs1 &&& imm.setWidth 64) s t) ∧
       (∃ t, exec (.addi c .ori rd rs1 imm) s = .next t ∧ wrote c rd (s.g c rs1 ||| imm.setWidth 64) s t) ∧
       (∃ t, exec (.addi c .xori rd rs1 imm) s = .next t ∧ wrote c rd (s.g c rs1 ^^^ imm.setWidth 64) s t) ∧
       (∃ t, exec (.addi c .clti rd rs1 imm) s = .next t ∧
         wrote c rd (if (s.g c rs1).toInt < imm.toInt then BitVec.allOnes 64 else 0) s t) ∧
       (∃ t, exec (.addi c .cltui rd rs1 imm) s = .next t ∧
         wrote c rd (if (s.g c rs1).toNat < (imm.signExtend 64 : DWord).toNat then BitVec.allOnes 64 else 0) s t)) ∧
     (s.issues c [rd] = true →
       (∃ t, exec (.liZ c rd h imm) s = .next t ∧ wrote c rd ((imm.setWidth 64 : DWord) <<< (16 * h.toNat)) s t) ∧
       (∃ t v, exec (.liK c rd h imm) s = .next t ∧ wrote c rd v s t ∧
         v.extractLsb' (16 * h.toNat) 16 = imm ∧
         ∀ i, i < 64 → (i < 16 * h.toNat ∨ 16 * h.toNat + 16 ≤ i) → v.getLsbD i = (s.g c rd).getLsbD i) ∧
       (∃ t, exec (.addpc c rd imm21) s = .next t ∧ wrote c rd (s.pc c + imm21.signExtend 64 * 4) s t))) ∧
  (∀ (s : State) (c : CoreId) (rd rs1 rs2 : RegId) (amt pos lenM1 : BitVec 6),
     let a := s.g c rs1
     (s.issues c [rd, rs1] = true →
       (∀ (kind : BitVec 2) (v : DWord),
         (kind, v) ∈ [(0, a <<< amt.toNat), (1, a >>> amt.toNat), (2, a.sshiftRight amt.toNat), (3, a.rotateRight amt.toNat)] →
         ∃ t, exec (.shli c kind false rd rs1 amt) s = .next t ∧ wrote c rd v s t) ∧
       (∀ (kind : BitVec 2) (v : Word), amt.toNat < 32 →
         (let x : Word := a.setWidth 32
          (kind, v) ∈ [(0, x <<< amt.toNat), (1, x >>> amt.toNat), (2, x.sshiftRight amt.toNat), (3, x.rotateRight amt.toNat)]) →
         ∃ t, exec (.shli c kind true rd rs1 amt) s = .next t ∧ wrote c rd (v.setWidth 64) s t) ∧
       (pos.toNat + lenM1.toNat + 1 ≤ 64 →
         (∃ t, exec (.bfx c 0 rd rs1 lenM1 pos) s = .next t ∧
           wrote c rd ((a.extractLsb' pos.toNat (lenM1.toNat + 1)).setWidth 64) s t) ∧
         (∃ t, exec (.bfx c 1 rd rs1 lenM1 pos) s = .next t ∧
           wrote c rd ((a.extractLsb' pos.toNat (lenM1.toNat + 1)).signExtend 64) s t) ∧
         (∃ t v, exec (.bfx c 2 rd rs1 lenM1 pos) s = .next t ∧ wrote c rd v s t ∧
           v.extractLsb' pos.toNat (lenM1.toNat + 1) = a.extractLsb' 0 (lenM1.toNat + 1) ∧
           ∀ i, i < 64 → (i < pos.toNat ∨ pos.toNat + lenM1.toNat < i) → v.getLsbD i = (s.g c rd).getLsbD i))) ∧
     (s.issues c [rd, rs1, rs2] = true →
       ∃ t v, exec (.permb c rd rs1 rs2) s = .next t ∧ wrote c rd v s t ∧
         ∀ j, j < 8 → v.extractLsb' (8 * j) 8 =
           if (s.g c rs2).getLsbD (4 * j + 3) then 0
           else a.extractLsb' (8 * ((s.g c rs2).extractLsb' (4 * j) 3).toNat) 8))

/-- Table 8-9, R278, R303: the products, and the pair of a wide product. A divide issues, and its pair waits among the
operations in flight: the quotient truncates toward zero and the remainder has the sign of the dividend; division by zero
saturates the quotient and gives the dividend. -/
def Obligations.MultipliesAndDivides : Prop :=
  (∀ (s : State) (c : CoreId) (rd rs1 rs2 : RegId),
     let a := s.g c rs1
     let b := s.g c rs2
     (s.issues c [rd, rs1, rs2] = true →
       (∃ t, exec (.mul c .mul rd rs1 rs2) s = .next t ∧ wrote c rd (a * b) s t) ∧
       (∃ t, exec (.mul c .mul32 rd rs1 rs2) s = .next t ∧ wrote c rd (BitVec.ofNat 64 (a.toNat * b.toNat % 2 ^ 32)) s t)) ∧
     (s.issues c [rd, rd + 1, rs1, rs2] = true → pairOk rd = true →
       ∀ (op : MulOp) (x : Int), (op, x) ∈ [(MulOp.mulxSS, a.toInt * b.toInt), (MulOp.mulxUU, (a.toNat : Int) * b.toNat), (MulOp.mulxSU, a.toInt * b.toNat)] →
       ∃ t, exec (.mul c op rd rs1 rs2) s = .next t ∧ wrotePair c rd (BitVec.ofInt 64 x) (BitVec.ofInt 64 (x / 2 ^ 64)) s t)) ∧
  (∀ (s : State) (c : CoreId) (op : DqrOp) (rd rs1 rs2 : RegId),
     s.issues c [rd, rd + 1, rs1, rs2] = true → pairOk rd = true → (s.core c).unitBusy .divider = false →
     let a := s.g c rs1
     let b := s.g c rs2
     let al : Word := a.setWidth 32
     let bl : Word := b.setWidth 32
     ∃ t q r, exec (.dqr c op rd rs1 rs2) s = .next t ∧
       ranTo c (fun x => { x with
         results := x.results ++ [{ unit := .divider, busy := true, writes := [(rd, q), (rd + 1, r)], flags := 0 }]
         cpu := { x.cpu with pc := s.pc c + 4 } }) s t ∧
       (op = .dqrU → (b = 0 → q = BitVec.allOnes 64 ∧ r = a) ∧ (b ≠ 0 → q.toNat = a.toNat / b.toNat ∧ r.toNat = a.toNat % b.toNat)) ∧
       (op = .dqrS →
         (b = 0 → q = (if a.toInt < 0 then BitVec.intMin 64 else BitVec.intMax 64) ∧ r = a) ∧
         (b ≠ 0 → a.toInt = -2 ^ 63 → b.toInt = -1 → q = BitVec.intMin 64 ∧ r = 0) ∧
         (b ≠ 0 → ¬(a.toInt = -2 ^ 63 ∧ b.toInt = -1) → q.toInt = a.toInt.tdiv b.toInt ∧ r.toInt = a.toInt.tmod b.toInt)) ∧
       (op = .dqr32U → (bl = 0 → q = 0xFFFFFFFF ∧ r.toNat = al.toNat) ∧
         (bl ≠ 0 → q.toNat = al.toNat / bl.toNat ∧ r.toNat = al.toNat % bl.toNat)) ∧
       (op = .dqr32S →
         (bl = 0 → q = (if al.toInt < 0 then 0x80000000 else 0x7FFFFFFF) ∧ r = al.setWidth 64) ∧
         (bl ≠ 0 → q = (BitVec.ofInt 32 (al.toInt.tdiv bl.toInt)).setWidth 64 ∧
           r = (BitVec.ofInt 32 (al.toInt.tmod bl.toInt)).setWidth 64)))

/-- R303, 10 R329: an operation that completes writes its results and ORs its flags into FSTAT, and leaves the operations in
flight: DQR_RESULT for the divide, FP_RESULT for the oldest floating-point operation that writes rd. -/
def Obligations.CompletionsWriteResults : Prop :=
  ∀ (s : State) (c : CoreId) (r : PendRes) (rd : RegId),
    ((s.core c).results.find? (fun x => x.unit = .divider) = some r →
      ∃ t, exec (.dqrResult c) s = .next t ∧ onlyCore c s t ∧
        t.core c = { s.core c with results := (s.core c).results.erase r, cpu := (s.cpu c).complete r }) ∧
    ((s.core c).results.find? (fun x => x.unit = .float && x.writes.any fun w => w.1 = rd) = some r →
      ∃ t, exec (.fpResult c rd) s = .next t ∧ onlyCore c s t ∧
        t.core c = { s.core c with results := (s.core c).results.erase r, cpu := (s.cpu c).complete r }) ∧
    (∀ n v q, ((s.cpu c).complete { r with writes := [(n, v)] }).get q =
      if q = 0 then 0 else if q = n then v else (s.cpu c).get q) ∧
    ((s.cpu c).complete r).fstat = (s.cpu c).fstat ||| r.flags.setWidth 64 ∧
    ((s.cpu c).complete r).pc = s.pc c ∧ ((s.cpu c).complete r).st = (s.cpu c).st

/-- R281, R283: where the control transfers go, the links they write, and SKIP. -/
def Obligations.ControlTransfersGoToTargets : Prop :=
  ∀ (s : State) (c : CoreId) (rd rs1 rs2 : RegId) (d16 : Half) (d26 : BitVec 26) (cc : BitVec 4) (n : BitVec 6),
    let a := s.g c rs1
    let b := s.g c rs2
    (s.issues c [rs1, rs2] = true →
      (∀ (op : BranchOp) (p : Bool),
        (op, p) ∈ [(BranchOp.eq, decide (a = b)), (BranchOp.ne, decide (a ≠ b)), (BranchOp.lt, decide (a.toInt < b.toInt)),
          (BranchOp.ge, decide (b.toInt ≤ a.toInt)), (BranchOp.lo, decide (a.toNat < b.toNat)), (BranchOp.hs, decide (b.toNat ≤ a.toNat))] →
        ∃ t, exec (.branch c op rs1 rs2 d16) s = .next t ∧
          jumped c (if p then s.pc c + d16.signExtend 64 * 4 else s.pc c + 4) s t) ∧
      (∀ (p : Bool),
        (cc, p) ∈ [(0#4, decide (a = b)), (1#4, decide (a ≠ b)), (2#4, decide (a.toInt < b.toInt)),
          (3#4, decide (b.toInt ≤ a.toInt)), (4#4, decide (a.toNat < b.toNat)), (5#4, decide (b.toNat ≤ a.toNat))] →
        ∃ t, exec (.skipCc c (.cmp cc rs1 rs2)) s = .next t ∧
          ranTo c (fun x => { x with cpu := { x.cpu with st := (if p then x.cpu.st ||| 16 else x.cpu.st), pc := s.pc c + 4 } }) s t)) ∧
    (s.issues c [rs1] = true → cc.toNat ≤ 1 →
      ∃ t, exec (.skipCc c (.bit cc rs1 n)) s = .next t ∧
        ranTo c (fun x => { x with cpu := { x.cpu with
          st := (if a.getLsbD n.toNat = decide (cc = 1) then x.cpu.st ||| 16 else x.cpu.st), pc := s.pc c + 4 } }) s t) ∧
    (s.issues c [] = true → ∃ t, exec (.jmp c d26) s = .next t ∧ jumped c (s.pc c + d26.signExtend 64 * 4) s t) ∧
    (s.issues c [31] = true → ∃ t, exec (.call c d26) s = .next t ∧ onlyRegs c s t ∧
      coreAt c (s.pc c + d26.signExtend 64 * 4) (fun r => if r = 31 then s.pc c + 4 else s.g c r) t) ∧
    (s.issues c [rd, rs1] = true → (a + d16.signExtend 64 * 4).toNat % 4 = 0 →
      ∃ t, exec (.jr c rd rs1 d16) s = .next t ∧ onlyRegs c s t ∧
        coreAt c (a + d16.signExtend 64 * 4) (fun r => if r = rd then s.pc c + 4 else s.g c r) t)

/-! ## Parsal: data accesses (08 R271, R284, 09 R310 to R312) -/

/-- A read of one byte after a write of bytes, and of a range after its zeroing (00 R11). -/
def Obligations.MemoryReadAfterWrite : Prop :=
  ∀ (s : State) (a : Nat) (l : List Byte) (i n : Nat),
    (s.poke a l).byte i = (if a ≤ i then l.getD (i - a) (s.byte i) else s.byte i) ∧
    (i < a ∨ a + n ≤ i → (s.zeroRange a n).byte i = s.byte i) ∧
    (a ≤ i → i < a + n → (s.zeroRange a n).byte i = memDflt i) ∧
    ((s.poke a l).mem = memWrite s.mem a l ∧ { s.poke a l with mem := s.mem, cores := s.cores } = s)

/-- R284, R311, R312, 05 R193: a load of core-local memory writes rd with the bytes of memory, or those a store-buffer entry
forwards; a load of a device address sends its request and waits, a spindle's from HBM for each unit that it takes an entry
for; its return writes rd. -/
def Obligations.LoadsWriteRegister : Prop :=
  ∀ (s : State) (c : CoreId) (op : LdOp) (rd rs1 : RegId) (seg : SegId) (off : BitVec 13),
    (s.issues c [rd, rs1] = true →
      let b := s.begun c
      let a := (s.cpu c).segAddr seg (s.g c rs1 + off.signExtend 64)
      (s.cpu c).segFault seg (s.g c rs1 + off.signExtend 64) (ldSize op) true false = none →
      (∀ (key : Nat) (d : Bool) (chk : DataCheck) (l : List Byte), b.place c a (ldSize op) = some (.loc key d) →
        ((b.core c).bufCheck key (ldSize op) = .none ∧ l = b.bytes key (ldSize op) ∨ (b.core c).bufCheck key (ldSize op) = .forward l) →
        ∃ t, exec (.ld c op rd rs1 seg off chk) s = .next t ∧ wrote c rd (loadedValue op l) s t) ∧
      (∀ (x : Nat), b.place c a (ldSize op) = some (.dev x) → isOwnHbm c x (ldSize op) = false →
        b.coreReach c x (ldSize op) ≠ .wait →
        ∃ t, exec (.ld c op rd rs1 seg off .ok) s = .next t ∧ t.pc c = (b.coreAccess c x (ldSize op) .read).2.pc c ∧
          (t.cpu c).outLoad = some ⟨op, rd, a, (b.coreAccess c x (ldSize op) .read).1.map natOfBytes, 0⟩) ∧
      (∀ (x : Nat) (chk : DataCheck), b.place c a (ldSize op) = some (.dev x) → isOwnHbm c x (ldSize op) = true →
        (s.ownHbm c x (ldSize op) = true → s.entryRoom c x (ldSize op) = true →
          ∃ t, exec (.ld c op rd rs1 seg off chk) s = .next t ∧ t.pc c = s.pc c ∧ (∀ r, t.g c r = s.g c r) ∧ t.mem = s.mem ∧
            (t.cpu c).outLoad = some ⟨op, rd, a, some 0, (unitsOf x (ldSize op)).length⟩ ∧
            (t.reqs c).map HbmReq.block = (s.reqs c).map HbmReq.block ++ unitsOf x (ldSize op)) ∧
        (s.ownHbm c x (ldSize op) = false →
          ∃ t, exec (.ld c op rd rs1 seg off chk) s = .next t ∧
            ranTo c (fun y => { y with cpu := { y.cpu with outLoad := some ⟨op, rd, a, none, 0⟩ } }) s t))) ∧
    (∀ (o : OutLoad) (v : Nat), (s.cpu c).outLoad = some o → o.waits = 0 → o.resp = some v →
      ∃ t, exec (.deviceLoadReturn c) s = .next t ∧ onlyCore c s t ∧ (t.cpu c).outLoad = none ∧
        coreAt c (s.pc c + 4) (fun r => if r = o.rd then ldValue o.op v else s.g c r) t) ∧
    (∀ (o : OutLoad), (s.cpu c).outLoad = some o → o.waits = 0 → o.resp = none →
      ∃ t, exec (.deviceLoadReturn c) s = .next t ∧
        t = (s.modCpu c fun u => { u with outLoad := none }).takeException c 7 (s.pc c) o.addr accLoad)

/-- R284, R310, R312, 05 R193: a store to core-local memory enters the buffer, whose oldest entry writes memory when it
leaves; a spindle's store to a hank writes there, one to HBM is posted in request entries, and one that meets an error
response is remembered for the imprecise Bus Error. -/
def Obligations.StoresWriteMemory : Prop :=
  ∀ (s : State) (c : CoreId) (op : StOp) (rs rs1 : RegId) (seg : SegId) (off : BitVec 13),
    (s.issues c [rs, rs1] = true →
      let b := s.begun c
      let n := stSize op
      let a := (s.cpu c).segAddr seg (s.g c rs1 + off.signExtend 64)
      let l := bytesOfNat n (s.g c rs).toNat
      (s.cpu c).segFault seg (s.g c rs1 + off.signExtend 64) n false true = none →
      (∀ (key : Nat) (d : Bool), b.place c a n = some (.loc key d) →
        (s.core c).storeBuf.length + (storeEnts key l).length ≤ 4 →
        ∃ t, exec (.st c op rs rs1 seg off) s = .next t ∧
          ranTo c (fun x => { x with storeBuf := x.storeBuf ++ storeEnts key l, cpu := { x.cpu with pc := s.pc c + 4 } }) s t) ∧
      (∀ (x : Nat), b.place c a n = some (.dev x) → c.val < 128 → b.coreReach c x n = .ok → 0x010000000000 ≤ x →
        x + n ≤ 0x010010000000 →
        ∃ t, exec (.st c op rs rs1 seg off) s = .next t ∧ t.pc c = s.pc c + 4 ∧ (∀ r, t.g c r = s.g c r) ∧
          t.mem = memWrite s.mem x l ∧ { t with mem := s.mem, cores := s.cores } = s) ∧
      (∀ (x : Nat), b.place c a n = some (.dev x) → isOwnHbm c x n = true → s.ownHbm c x n = true → s.entryRoom c x n = true →
        ∃ t, exec (.st c op rs rs1 seg off) s = .next t ∧ t.pc c = s.pc c + 4 ∧ (∀ r, t.g c r = s.g c r) ∧ t.mem = s.mem ∧
          (t.reqs c).map HbmReq.block = (s.reqs c).map HbmReq.block ++ unitsOf x n ∧
          ∀ r ∈ (t.reqs c).drop (s.reqs c).length, r.src = .core ∧ r.write = true) ∧
      (∀ (x : Nat), b.place c a n = some (.dev x) → isOwnHbm c x n = false ∧ b.coreReach c x n ≠ .wait ∨ isOwnHbm c x n = true ∧ s.ownHbm c x n = false →
        (b.coreAccess c x n (.write (BitVec.ofNat 2048 ((s.g c rs).toNat % 2 ^ (8 * n))))).1 = none →
        ∃ t, exec (.st c op rs rs1 seg off) s = .next t ∧
          ranTo c (fun y => { y with failed := y.failed ++ [a], cpu := { y.cpu with pc := s.pc c + 4 } }) s t)) ∧
    (∀ (e : StoreEnt) (r : List StoreEnt), (s.core c).storeBuf = e :: r →
      ∃ t, exec (.storeBufferWrite c) s = .next t ∧ (t.core c).storeBuf = r ∧ (∀ q, t.g c q = s.g c q) ∧ t.pc c = s.pc c ∧
        t.mem = memWrite s.mem e.addr e.data ∧ { t with mem := s.mem, cores := s.cores } = s)

/-- R286: LR takes the word and the reservation of its granule; SC stores and writes 0 when the reservation covers the
address, else it writes 1, and clears it in both cases; TAS takes the doubleword and writes 1. -/
def Obligations.AtomicsHoldReservation : Prop :=
  ∀ (s : State) (c : CoreId) (dbl : Bool) (rd rs1 rs2 : RegId) (seg : SegId) (p : Place) (chk : DataCheck),
    let b := s.begun c
    let e := s.g c rs1
    let n := if dbl then 8 else 4
    s.quiet c = true → ((s.cpu c).segAddr seg e).toNat % n = 0 → b.place c ((s.cpu c).segAddr seg e) n = some p →
    atomicPlace c (some p) = true →
    (s.issues c [rd, rs1] = true → (s.cpu c).segFault seg e n true false = none →
      ∀ (v : Nat) (s1 : State), b.elemRead c seg e n false chk = .done v s1 →
      ∃ t x, exec (.lr c dbl rd rs1 ⟨seg, chk⟩) s = .next t ∧ x.toNat % 2 ^ (8 * n) = v % 2 ^ (8 * n) ∧
        coreAt c (s1.pc c + 4) (fun r => if r = rd then x else s1.g c r) t ∧ (t.cpu c).resv = some (granuleOf p) ∧
        { t with cores := s1.cores, clock := s1.clock } = s1) ∧
    (s.issues c [rd, rs1, rs2] = true → (s.cpu c).segFault seg e n false true = none →
      ((s.cpu c).resv ≠ some (granuleOf p) →
        ∃ t, exec (.sc c dbl rd rs1 rs2 seg) s = .next t ∧
          ranTo c (fun x => { x with cpu := { x.cpu.set rd 1 with resv := none, pc := s.pc c + 4 } }) s t) ∧
      (∀ (s1 : State), (s.cpu c).resv = some (granuleOf p) → b.lockWaits p = false →
        b.elemWrite c seg e n ((s.g c rs2).toNat % 2 ^ (8 * n)) = .done () s1 →
        ∃ t, exec (.sc c dbl rd rs1 rs2 seg) s = .next t ∧ (t.cpu c).resv = none ∧
          coreAt c (s1.pc c + 4) (fun r => if r = rd then 0 else s1.g c r) t ∧
          { t with cores := s1.cores, locks := s1.locks } = s1)) ∧
    (s.issues c [rd, rs1] = true → dbl = true → (s.cpu c).segFault seg e 8 true true = none → b.lockWaits p = false →
      ∀ (v : Nat) (s1 s2 : State), b.elemRead c seg e 8 true chk = .done v s1 →
      s1.elemWrite c seg e 8 1 = .done () s2 →
      ∃ t, exec (.tas c rd rs1 ⟨seg, chk⟩) s = .next t ∧ coreAt c (s2.pc c + 4) (fun r => if r = rd then BitVec.ofNat 64 v else s2.g c r) t ∧
        { t with cores := s2.cores, locks := s2.locks } = s2)

/-- R287: what one element of each REP does: the offset registers move by the element, up for a positive count and down for
a negative one, and the count moves toward 0, where the PC leaves. REP.CMP ends at the first unequal pair and REP.FIND at
the first equal element, with the registers naming it; a count of 0 moves nothing. R288: an element whose second operand faults
leaves its first unread. R289: REP.MOV with LOCK reads its source into the lock buffer, writes from it element by element, clears it
with the last element, and raises Atomic Fault where the rule's conditions fail or the buffer is another instruction's. -/
def Obligations.RepMovesOneElement : Prop :=
  ∀ (s : State) (c : CoreId) (rc ra rb : RegId) (sseg dseg : SegId) (size : BitVec 2) (chk chkB : DataCheck),
    s.issues c [rc, ra, rb] = true → (s.core c).storeBuf = [] →
    rc ≠ 0 → ra ≠ 0 → rb ≠ 0 → rc ≠ ra → rc ≠ rb → ra ≠ rb →
    let b := s.begun c
    let n := 2 ^ size.toNat
    let cnt := s.g c rc
    (cnt = 0 → (∃ t, exec (.repMov c rc ra rb sseg dseg size false ⟨none, chk⟩) s = .next t ∧ jumped c (s.pc c + 4) s t) ∧
      (sseg = 0 → (∃ t, exec (.repFill c rc ra rb sseg dseg size) s = .next t ∧ jumped c (s.pc c + 4) s t) ∧
        (∃ t, exec (.repFind c rc ra rb sseg dseg ⟨size, chk⟩) s = .next t ∧ jumped c (s.pc c + 4) s t)) ∧
      (∃ t, exec (.repCmp c rc ra rb sseg dseg ⟨size, (chk, chkB)⟩) s = .next t ∧ jumped c (s.pc c + 4) s t)) ∧
    (cnt ≠ 0 →
      (∀ (code : Nat), b.elemCheck c sseg (s.g c ra) n true false = none →
        (b.elemCheck c dseg (s.g c rb) n false true = some code →
          ∃ t, exec (.repMov c rc ra rb sseg dseg size false ⟨none, chk⟩) s = .next t ∧
            t = b.dataFault c code ((s.cpu c).segAddr dseg (s.g c rb)) accStore) ∧
        (b.elemCheck c dseg (s.g c rb) n true false = some code →
          ∃ t, exec (.repCmp c rc ra rb sseg dseg ⟨size, (chk, chkB)⟩) s = .next t ∧
            t = b.dataFault c code ((s.cpu c).segAddr dseg (s.g c rb)) accLoad)) ∧
      (∀ (v : Nat) (s1 s2 : State), b.elemCheck c dseg (s.g c rb) n false true = none →
        b.elemRead c sseg (s.g c ra) n false chk = .done v s1 →
        s1.elemWrite c dseg (s.g c rb) n v = .done () s2 →
        ∃ t, exec (.repMov c rc ra rb sseg dseg size false ⟨none, chk⟩) s = .next t ∧ repStepped c rc [ra, rb] n s2 t) ∧
      (∀ (s1 : State), sseg = 0 → b.elemWrite c dseg (s.g c rb) n ((s.g c ra).toNat % 2 ^ (8 * n)) = .done () s1 →
        ∃ t, exec (.repFill c rc ra rb sseg dseg size) s = .next t ∧ repStepped c rc [rb] n s1 t) ∧
      (∀ (x y : Nat) (s1 s2 : State), b.elemCheck c dseg (s.g c rb) n true false = none →
        b.elemRead c sseg (s.g c ra) n false chk = .done x s1 →
        s1.elemRead c dseg (s.g c rb) n false chkB = .done y s2 →
        (x = y → ∃ t, exec (.repCmp c rc ra rb sseg dseg ⟨size, (chk, chkB)⟩) s = .next t ∧ repStepped c rc [ra, rb] n s2 t) ∧
        (x ≠ y → ∃ t, exec (.repCmp c rc ra rb sseg dseg ⟨size, (chk, chkB)⟩) s = .next t ∧ t = s2.advance c)) ∧
      (∀ (x : Nat) (s1 : State), sseg = 0 → b.elemRead c dseg (s.g c rb) n false chk = .done x s1 →
        (x ≠ (s.g c ra).toNat % 2 ^ (8 * n) → ∃ t, exec (.repFind c rc ra rb sseg dseg ⟨size, chk⟩) s = .next t ∧ repStepped c rc [rb] n s1 t) ∧
        (x = (s.g c ra).toNat % 2 ^ (8 * n) → ∃ t, exec (.repFind c rc ra rb sseg dseg ⟨size, chk⟩) s = .next t ∧ t = s1.advance c))) ∧
    (let e := s.g c ra
      let a := (s.cpu c).segAddr sseg e
      let bytes := cnt.toNat * 8
      let locked (t : State) : Prop := exec (.repMov c rc ra rb sseg dseg size true ⟨none, chk⟩) s = .next t
      (∀ (f : LockBuf), (s.cpu c).lockBuf = some f →
        (f.at_ ≠ s.pc c → ∃ t, locked t ∧ t = b.dataFault c 8 a accAtomic) ∧
        (∀ (s1 : State), f.at_ = s.pc c →
          b.elemWrite c dseg (s.g c rb) 8 (natOfBytes ((f.data.drop (e - f.base).toNat).take 8)) = .done () s1 →
          (f.data.length ≤ (e - f.base).toNat + 8 → ∃ t u, locked t ∧ repStepped c rc [ra, rb] 8 s1 u ∧
            t = u.modCpu c fun x => { x with lockBuf := none, pc := f.at_ + 4 }) ∧
          ((e - f.base).toNat + 8 < f.data.length → ∃ t, locked t ∧ repStepped c rc [ra, rb] 8 s1 t))) ∧
      ((s.cpu c).lockBuf = none → (s.cpu c).segFault sseg e (if bytes ≤ 1024 then bytes else 1) true false = none →
        (e.toNat % 64 ≠ 0 ∨ size ≠ 3 ∨ cnt.toInt ≤ 0 ∨ 128 < cnt.toInt → ∃ t, locked t ∧ t = b.dataFault c 8 a accAtomic) ∧
        (∀ (x : Nat) (g : LockTarget) (l : List Byte) (s1 : State), e.toNat % 64 = 0 → size = 3 → 0 < cnt.toInt → cnt.toInt ≤ 128 →
          b.place c a 1 = some (.dev x) → (lockTargetOf x).isSome = true → lockTargetOf a.toNat = some g → (128 ≤ c.val ∨ b.inM4 c = false) →
          b.lockFree g = true → chk = .ok → State.lockRead c (lockBeats cnt.toNat) a.toNat b = (some l, s1) → l ≠ [] →
          ∃ t, locked t ∧ (t.cpu c).lockBuf = some ⟨s1.pc c, e, l.take bytes⟩ ∧ t.pc c = s1.pc c ∧ (∀ r, t.g c r = s1.g c r) ∧
            t.mem = s1.mem)))

/-! ## Parsal: exceptions, the system instructions and special registers (08 R267, R290, R293, Table 8-13, 12) -/

/-- R358, R360: what taking an exception writes, when the fetch at the vector does not itself raise; and R361: when it does, the
core halts. -/
def Obligations.ExceptionEntryWritesState : Prop :=
  ∀ (s : State) (c : CoreId) (code acc : Nat) (epc eaddr : DWord) (imp : Bool), code < 32 → acc < 4 →
    let t := s.takeException c code epc eaddr acc imp
    let vec := BitVec.ofNat 64 ((s.cpu c).vbase.toNat / 2 ^ 13 * 2 ^ 13 + 0x1000 + 64 * code)
    let u := s.modCore c fun x => { x.drain with run := .executing }
    (t.cpu c).pc = vec ∧
    (t.cpu c).epc = (if code = 12 then (s.cpu c).epc else epc) ∧ (t.cpu c).est = (if code = 12 then (s.cpu c).est else s.stReg c) ∧
    (t.cpu c).ecause = BitVec.ofNat 64 (code + acc * 4096 + if imp then 16384 else 0) ∧ (t.cpu c).eaddr = eaddr ∧
    ((t.cpu c).st.extractLsb' 0 2).toNat = (if c.val < 128 then 1 else 3) ∧ (t.cpu c).st.getLsbD 2 = false ∧
    (t.cpu c).st.getLsbD 3 = (s.cpu c).st.getLsbD 3 ∧ (t.cpu c).st.getLsbD 4 = false ∧ (t.cpu c).resv = none ∧
    (t.core c).results = [] ∧ (t.cpu c).g = (u.cpu c).g ∧ (t.cpu c).fstat = (u.cpu c).fstat ∧ (t.cpu c).fctl = (s.cpu c).fctl ∧
    (t.cpu c).svl = (s.cpu c).svl ∧ (t.cpu c).vstart = (s.cpu c).vstart ∧ (t.cpu c).sgb = (s.cpu c).sgb ∧ (t.cpu c).sgl = (s.cpu c).sgl ∧
    (t.cpu c).v = (s.cpu c).v ∧ (t.cpu c).vbase = (s.cpu c).vbase ∧ t.mem = s.mem ∧
    ((t.core c).run = .executing ∨ (t.core c).run = .halted) ∧
    ((u.setPc c vec).fetchFault c vec = none → (t.core c).run = .executing ∧ onlyCore c s t) ∧
    ((u.setPc c vec).fetchFault c vec ≠ none → (t.core c).run = .halted)

/-- Table 12-2, R274, R277, R278, R281, R282, R354, R363, R364: SCALL and BREAK take their exceptions; RETX returns, or
takes Return Fault; and where the other instructions trap: function codes, amounts, pairs, conditions and special registers
that are not listed, and what U may not do, with the word as EADDR; and a jump to a target that is not a multiple of 4, with
its link written. -/
def Obligations.SystemCallAndReturn : Prop :=
  ∀ (s : State) (c : CoreId) (rd rs1 rs2 : RegId) (w : Word) (kind : BitVec 2) (amt lenM1 pos : BitVec 6) (sr : BitVec 10) (d16 : Half)
    (f : SkipForm),
    let user : Prop := (s.cpu c).pl = 0
    let listed : Prop := sr.toNat ≤ 5 ∨ (8 ≤ sr.toNat ∧ sr.toNat ≤ 11) ∨ (0x10 ≤ sr.toNat ∧ sr.toNat ≤ 0x20)
    (s.issues c [] = true →
      (∃ t, exec (.scall c) s = .next t ∧ trapped c 0x09 0 s t) ∧
      (∃ t, exec (.brk c) s = .next t ∧ trapped c 0x0A 0 s t) ∧
      ((s.cpu c).pl = 0 → ∃ t, exec (.retx c) s = .next t ∧ trapped c 2 0xB8000002 s t) ∧
      ((s.cpu c).pl ≠ 0 → returnFaults c (s.cpu c).pl (s.cpu c).est = false →
        ∃ t, exec (.retx c) s = .next t ∧ (t.cpu c).st = (s.cpu c).est ∧ (t.cpu c).pc = (s.cpu c).epc ∧ (t.cpu c).resv = none ∧
          (∀ r, t.g c r = s.g c r) ∧ (t.cpu c).epc = (s.cpu c).epc ∧ (t.cpu c).est = (s.cpu c).est ∧ t.mem = s.mem ∧
          ((s.cpu c).epc ≠ idleMarker ∨ 128 ≤ c.val → (t.core c).run = .executing) ∧
          ((s.cpu c).epc = idleMarker → c.val < 128 → (t.core c).run = .idle) ∧
          ((s.cpu c).inServ ≠ none → (s.cpu c).xdepth = 0 → (t.cpu c).inServ = none)) ∧
      ((s.cpu c).pl ≠ 0 →
        ((s.cpu c).pl < bvFld (s.cpu c).est 0 2 ∨ bvFld (s.cpu c).est 0 2 = 2 ∨ (bvFld (s.cpu c).est 0 2 = 3 ∧ c.val < 128) ∨
          32 ≤ (s.cpu c).est.toNat) →
        ∃ t, exec (.retx c) s = .next t ∧ t = (s.begun c).takeException c 0x0C (s.cpu c).epc (s.pc c)) ∧
      (user → ∃ t, exec (.wfi c) s = .next t ∧ trapped c 2 0xB8000005 s t) ∧
      (0xF0000000 ≤ w.toNat → ∃ t, exec (.integerAlu c w) s = .next t ∧ trapped c 3 (w.setWidth 64) s t)) ∧
    (s.issues c [w.extractLsb' 21 5, w.extractLsb' 16 5, w.extractLsb' 11 5] = true → w.extractLsb' 26 6 = 0 → w.extractLsb' 6 5 = 0 →
      (∀ n, 0x15 ≤ n → n ≠ 0x18 → n ≠ 0x19 → n ≠ 0x1A → w.toNat % 64 = n →
        ∃ t, exec (.integerAlu c w) s = .next t ∧ trapped c 1 (w.setWidth 64) s t)) ∧
    (s.issues c [rd, rs1] = true →
      (32 ≤ amt.toNat → ∃ t, exec (.shli c kind true rd rs1 amt) s = .next t ∧ trapped c 1 ((wShift kind true rd rs1 amt).setWidth 64) s t) ∧
      (kind = 3 ∨ 64 < pos.toNat + lenM1.toNat + 1 →
        ∃ t, exec (.bfx c kind rd rs1 lenM1 pos) s = .next t ∧
          trapped c 1 ((wImm 0x0B rd rs1 (kind.toNat * 2 ^ 14 + lenM1.toNat * 2 ^ 6 + pos.toNat)).setWidth 64) s t) ∧
      (let a := s.g c rs1 + d16.signExtend 64 * 4
       a.toNat % 4 ≠ 0 → ∃ t, exec (.jr c rd rs1 d16) s = .next t ∧
        t = (((s.begun c).setG c rd (s.pc c + 4)).setPc c a).takeException c 4 a a)) ∧
    (s.issues c [rd, rd + 1, rs1, rs2] = true → (rd.toNat % 2 = 1 ∨ rd = 0) →
      (∀ op, op ∈ [MulOp.mulxSS, .mulxUU, .mulxSU] → ∃ t, exec (.mul c op rd rs1 rs2) s = .next t ∧
        trapped c 1 ((wReg 0x0A rd rs1 rs2 0 (mulFunc op)).setWidth 64) s t) ∧
      (∀ op, ∃ t, exec (.dqr c op rd rs1 rs2) s = .next t ∧ trapped c 1 ((wReg 0x0A rd rs1 rs2 0 (dqrFunc op)).setWidth 64) s t)) ∧
    (s.issues c (skipRegs f) = true → skipCond f s c = none → ∃ t, exec (.skipCc c f) s = .next t ∧ trapped c 1 ((wSkip f).setWidth 64) s t) ∧
    (s.issues c [rd] = true →
      (¬listed → ∃ t, exec (.mfsr c rd sr) s = .next t ∧ trapped c 1 ((wSr 8 rd 0 sr).setWidth 64) s t) ∧
      (user → 1 ≤ sr.toNat → sr.toNat ≤ 5 → ∃ t, exec (.mfsr c rd sr) s = .next t ∧ trapped c 2 ((wSr 8 rd 0 sr).setWidth 64) s t)) ∧
    (s.issues c [rs1] = true →
      (¬listed → ∃ t, exec (.mtsr c rs1 sr) s = .next t ∧ trapped c 1 ((wSr 9 0 rs1 sr).setWidth 64) s t) ∧
      (user → (sr.toNat ≤ 5 ∨ (0x10 ≤ sr.toNat ∧ sr.toNat ≤ 0x1F)) → ∃ t, exec (.mtsr c rs1 sr) s = .next t ∧ trapped c 2 ((wSr 9 0 rs1 sr).setWidth 64) s t))

/-- Table 8-13, R290, 02 R85, 12 R362, R365, 09 R307, 05 R177: SYNC waits for the stores and goes on, SYNC.I empties the
instruction cache besides; WFI waits unless a source is pending; KEND, until the cycle in which the budget counter reaches
0, makes the commit due once the slots and the stores are done, and KABORT the abort. The imprecise Bus Error reports the
first failed store at a boundary; a refill that is due loads the line at PC, and is a Bus Error where its data cannot be
corrected. -/
def Obligations.SynchronisationAndEnd : Prop :=
  ∀ (s : State) (c : CoreId),
    (∀ (a : DWord) (r : List DWord), (s.core c).failed = a :: r → (s.cpu c).outLoad = none →
      (s.core c).run = .executing ∨ (s.core c).run = .wfi →
      ∃ t, exec (.impreciseBusError c) s = .next t ∧
        t = (s.modCore c fun x => { x with failed := [] }).takeException c 7 (s.pc c) a accStore true) ∧
    (let line := (s.pc c).toNat / 64
      let l : Nat × BitVec 512 := (line, BitVec.ofNat 512 (natOfBytes (s.bytes (64 * line) 64)))
      (s.core c).run = .executing → (s.cpu c).outLoad = none → (s.cpu c).sk = false → s.fetchFault c (s.pc c) = none →
      s.fetchReady c (s.pc c).toNat = false → s.coreReach c (64 * line) 64 ≠ .wait →
      (∃ t, exec (.icacheRefill ⟨c, .ok⟩) s = .next t ∧ (isOwnHbm c (64 * line) 64 = false → onlyCore c s t) ∧
        (∀ j, j ≠ c.val → t.core j = s.core j) ∧ t.mem = s.mem ∧ t.fetchReady c (s.pc c).toNat = true ∧
        (t.cpu c).lineBuf = some l ∧ l ∈ tabGet [] (t.core c).icache (line % 64) ∧
        (tabGet [] (t.core c).icache (line % 64)).length ≤ 4 ∧ (t.cpu c).pc = s.pc c ∧ (t.cpu c).g = (s.cpu c).g) ∧
      (isOwnHbm c (64 * line) 64 = false → (s.cpu c).entered = false →
        ∃ t, exec (.icacheRefill ⟨c, .uncorrectable⟩) s = .next t ∧
          t = (s.memUe (64 * line)).takeException c 7 (s.pc c) (s.pc c))) ∧
    (s.issues c [] = true →
      (s.quiet c = true →
        (∃ t, exec (.sync c) s = .next t ∧ jumped c (s.pc c + 4) s t) ∧
        (∃ t, exec (.syncI c) s = .next t ∧
          ranTo c (fun x => { x with icache := [], cpu := { x.cpu with lineBuf := none, pc := s.pc c + 4 } }) s t)) ∧
      ((s.cpu c).pl ≠ 0 →
        ((s.begun c).wfiWake c = true → ∃ t, exec (.wfi c) s = .next t ∧ jumped c (s.pc c + 4) s t) ∧
        ((s.begun c).wfiWake c = false → ∃ t, exec (.wfi c) s = .next t ∧
          ranTo c (fun x => { x with run := .wfi, cpu := { x.cpu with pc := s.pc c + 4 } }) s t)) ∧
      (c.val < 128 → (s.disp c).running ≠ none →
        ((s.disp c).overdue = false → (s.disp c).stop = none ∨ (s.disp c).stop = some .overrun →
          ((s.seqr c).halted = false → (s.seqr c).quiet = true → s.storesDone c = true →
            ∃ t, exec (.kend c) s = .next t ∧ t = (s.begun c).setDisp c { s.disp c with ending := true, stop := none }) ∧
          ((s.seqr c).halted = true →
            ∃ t, exec (.kend c) s = .next t ∧ t = (s.begun c).setDisp c { s.disp c with stop := some .fault })) ∧
        ((s.disp c).overdue = true → (s.disp c).stop = none →
          ∃ t, exec (.kend c) s = .next t ∧ t = (s.begun c).setDisp c { s.disp c with stop := some .overrun }) ∧
        ((s.cpu c).pl ≠ 0 → ∃ t, exec (.kabort c) s = .next t ∧ t = (s.begun c).setDisp c { s.disp c with stop := some .fault })) ∧
      (128 ≤ c.val ∨ (s.disp c).running = none →
        (∃ t, exec (.kend c) s = .next t ∧ trapped c 1 0xB8000006 s t) ∧
        (∃ t, exec (.kabort c) s = .next t ∧ trapped c 1 0xB8000007 s t)))

/-- Tables 8-1 to 8-3, 12-4, R267, R354: reads and writes of the special registers, in a mode that may make them. That MTSR to SVL
and CORE_ID is ignored and that EST is written in all 64 bits is the model's reading, log entry 43. -/
def Obligations.SpecialRegistersReadAndWrite : Prop :=
  ∀ (s : State) (c : CoreId) (rd rs1 : RegId) (seg : SegId),
    (s.issues c [rd] = true →
      (∀ (n : BitVec 10) (v : DWord),
        (n, v) ∈ [(9#10, s.fctlReg c), (10#10, (s.cpu c).svl), (11#10, (s.cpu c).vstart), (0#10, s.stReg c), (0x20#10, s.coreId c)] →
        ∃ t, exec (.mfsr c rd n) s = .next t ∧ wrote c rd v s t) ∧
      ((s.core c).fpBusy = false → ∃ t, exec (.mfsr c rd 8) s = .next t ∧ wrote c rd (s.cpu c).fstat s t) ∧
      (∃ t, exec (.mfsr c rd (BitVec.ofNat 10 (0x10 + seg.toNat))) s = .next t ∧ wrote c rd (tabGet 0 (s.cpu c).sgb seg.toNat) s t) ∧
      (∃ t, exec (.mfsr c rd (BitVec.ofNat 10 (0x18 + seg.toNat))) s = .next t ∧ wrote c rd (tabGet 0 (s.cpu c).sgl seg.toNat) s t) ∧
      ((s.cpu c).pl ≠ 0 → ∀ (n : BitVec 10) (v : DWord),
        (n, v) ∈ [(1#10, (s.cpu c).epc), (2#10, (s.cpu c).est), (3#10, (s.cpu c).ecause), (4#10, (s.cpu c).eaddr), (5#10, (s.cpu c).vbase)] →
        ∃ t, exec (.mfsr c rd n) s = .next t ∧ wrote c rd v s t)) ∧
    (s.issues c [rs1] = true →
      let v := s.g c rs1
      (∃ t, exec (.mtsr c rs1 11) s = .next t ∧ ranTo c (fun x => { x with cpu := { x.cpu with vstart := v &&& 0xFF, pc := s.pc c + 4 } }) s t) ∧
      ((s.core c).fpBusy = false →
        (∃ t, exec (.mtsr c rs1 8) s = .next t ∧ ranTo c (fun x => { x with cpu := { x.cpu with fstat := v &&& 0xBF, pc := s.pc c + 4 } }) s t) ∧
        (s.flushForced c = false ∨ 128 ≤ c.val → ∃ t, exec (.mtsr c rs1 9) s = .next t ∧
          ranTo c (fun x => { x with cpu := { x.cpu with fctl := v &&& 0x1F, pc := s.pc c + 4 } }) s t)) ∧
      (∀ n : BitVec 10, n = 10 ∨ n = 0x20 → ∃ t, exec (.mtsr c rs1 n) s = .next t ∧ jumped c (s.pc c + 4) s t) ∧
      ((s.cpu c).pl ≠ 0 →
        (∃ t st, exec (.mtsr c rs1 0) s = .next t ∧ ranTo c (fun x => { x with cpu := { x.cpu with st := st, pc := s.pc c + 4 } }) s t ∧
          st.getLsbD 2 = v.getLsbD 2 ∧ (st.getLsbD 3 = if c.val < 128 ∧ s.inM4 c = true then (s.cpu c).st.getLsbD 3 else v.getLsbD 3) ∧
          ∀ i, i ≠ 2 → i ≠ 3 → st.getLsbD i = (s.cpu c).st.getLsbD i) ∧
        (∃ t, exec (.mtsr c rs1 1) s = .next t ∧ ranTo c (fun x => { x with cpu := { x.cpu with epc := v, pc := s.pc c + 4 } }) s t) ∧
        (∃ t, exec (.mtsr c rs1 2) s = .next t ∧ ranTo c (fun x => { x with cpu := { x.cpu with est := v, pc := s.pc c + 4 } }) s t) ∧
        (∃ t, exec (.mtsr c rs1 5) s = .next t ∧
          ranTo c (fun x => { x with cpu := { x.cpu with vbase := v &&& 0xFFFFFFFFFFFFE0FF, pc := s.pc c + 4 } }) s t) ∧
        (∃ t, exec (.mtsr c rs1 (BitVec.ofNat 10 (0x10 + seg.toNat))) s = .next t ∧
          ranTo c (fun x => { x with cpu := { x.cpu with sgb := tabSet 0 x.cpu.sgb seg.toNat v, pc := s.pc c + 4 } }) s t) ∧
        (∃ t, exec (.mtsr c rs1 (BitVec.ofNat 10 (0x18 + seg.toNat))) s = .next t ∧
          ranTo c (fun x => { x with cpu := { x.cpu with sgl := tabSet 0 x.cpu.sgl seg.toNat (v &&& 0xFFFFFFFFFFFFF), pc := s.pc c + 4 } }) s t)))

/-! ## Parsal: floating point and short vectors (08 R292 to R296, 03 R144 to R149, 10) -/

/-- R322, R324, R292, R293, R303: a finite normal or zero operand read and delivered in its own format gives the same bits
and no flag, whatever the rounding mode. A floating-point operation whose STRAP is 0 has a value, and issues with it; its
result and flags wait among the operations in flight. With STRAP 1 it completes at once, or raises Subnormal Trap; FFMA likewise. -/
def Obligations.FloatingPointIssuesResult : Prop :=
  (∀ (f : Fmt) (env : FEnv) (x : Nat), f ∈ [fF16, fBF16, fF32, fF64] → x < 2 ^ f.width →
    (0 < fld x f.fb f.eb ∧ fld x f.fb f.eb < 2 ^ f.eb - 1 ∨ x % 2 ^ (f.width - 1) = 0) →
    fOut f env (fIn f env x).val = { bits := x, flags := 0, tiny := false } ∧ (fIn f env x).flags = 0) ∧
  (∀ (s : State) (c : CoreId) (k : BitVec 5) (kind : BitVec 2) (dbl : Bool) (rd rs1 rs2 rs3 : RegId),
      let b := s.begun c
      let env := b.fpEnv c false
      let low (r : RegId) : Nat := (s.g c r).toNat % 2 ^ (if dbl then 64 else 32)
      let pend (slow : Bool) (v : Nat × Nat) : PendRes :=
        { unit := .float, busy := slow, writes := [(rd, BitVec.ofNat 64 v.1)], flags := BitVec.ofNat 8 v.2 }
      (s.issues c [rd, rs1, rs2] = true → k.toNat ≤ 16 → (k = 4 → rs2 = 0) → (k = 3 ∨ k = 4 → (s.core c).unitBusy .float = false) →
        (env.strap = false → ∃ v, fpOp k.toNat dbl env (s.g c rs1) (s.g c rs2) = some v ∧
          ∃ t, exec (.floatingPoint c k dbl rd rs1 rs2) s = .next t ∧
            ranTo c (fun x => { x with results := x.results ++ [pend (k = 3 || k = 4) v], cpu := { x.cpu with pc := s.pc c + 4 } }) s t) ∧
        (∀ v, env.strap = true → fpOp k.toNat dbl env (s.g c rs1) (s.g c rs2) = some v →
          ∃ t, exec (.floatingPoint c k dbl rd rs1 rs2) s = .next t ∧ onlyCore c s t ∧
            coreAt c (s.pc c + 4) (fun r => if r = rd then BitVec.ofNat 64 v.1 else s.g c r) t ∧
            (t.cpu c).fstat = (s.cpu c).fstat ||| (BitVec.ofNat 8 v.2).setWidth 64) ∧
        (fpOp k.toNat dbl env (s.g c rs1) (s.g c rs2) = none →
          ∃ t, exec (.floatingPoint c k dbl rd rs1 rs2) s = .next t ∧ trapped c 0x0B 0 s t)) ∧
      (s.issues c [rd, rs1, rs2, rs3] = true → kind ≠ 3 → env.strap = false →
        ∃ v, eFma kind.toNat (if dbl then 11 else 10) env 0 (low rs1) (low rs2) (low rs3) = some v ∧
          ∃ t, exec (.ffma c kind dbl rd rs1 rs2 rs3) s = .next t ∧
            ranTo c (fun x => { x with results := x.results ++ [pend false v], cpu := { x.cpu with pc := s.pc c + 4 } }) s t) ∧
      (s.issues c [rd, rs1, rs2, rs3] = true → kind ≠ 3 → env.strap = true →
        (∀ v, eFma kind.toNat (if dbl then 11 else 10) env 0 (low rs1) (low rs2) (low rs3) = some v →
          ∃ t, exec (.ffma c kind dbl rd rs1 rs2 rs3) s = .next t ∧ onlyCore c s t ∧
            coreAt c (s.pc c + 4) (fun r => if r = rd then BitVec.ofNat 64 v.1 else s.g c r) t ∧
            (t.cpu c).fstat = (s.cpu c).fstat ||| (BitVec.ofNat 8 v.2).setWidth 64) ∧
        (eFma kind.toNat (if dbl then 11 else 10) env 0 (low rs1) (low rs2) (low rs3) = none →
          ∃ t, exec (.ffma c kind dbl rd rs1 rs2 rs3) s = .next t ∧ trapped c 0x0B 0 s t)))

/-- R145, R149, Table 3-14, R294 to R296: SETVL sets LEN to the lesser of g[rs1] and the capacity of the ply, and writes it
to rd; and the elements of a short-vector operation, from VSTART on, as one vector: element j of the result is what the
function gives for j, and every other element is what it was; the flags are all of theirs. -/
def Obligations.ShortVectorElements : Prop :=
  (∀ (g : Nat → ERes) (r : Nat → Nat × Nat) (w m i acc fl : Nat), 0 < w → (∀ j, i ≤ j → j < i + m → g j = some (r j)) →
    (svRun g w m i acc fl).2.2 = none ∧
    (∀ j, elGet (svRun g w m i acc fl).1 j w = if i ≤ j ∧ j < i + m then (r j).1 % 2 ^ w else elGet acc j w) ∧
    (∀ n, bitOf (svRun g w m i acc fl).2.1 n = true ↔ bitOf fl n = true ∨ ∃ j, i ≤ j ∧ j < i + m ∧ bitOf (r j).2 n = true)) ∧
  (∀ (s : State) (c : CoreId) (rd rs1 ty : RegId) (ply : BitVec 2), s.issues c [rd, rs1] = true →
    (ty.toNat ≤ 12 →
      ∃ (t : State) (n : Nat), exec (.setvl c rd rs1 ty ply) s = .next t ∧ onlyCore c s t ∧
        n = min (s.g c rs1).toNat (128 * 2 ^ ply.toNat / tyWidth ty.toNat) ∧
        coreAt c (s.pc c + 4) (fun r => if r = rd then BitVec.ofNat 64 n else s.g c r) t ∧
        svLen (t.cpu c).svl = n ∧ svType (t.cpu c).svl = ty.toNat ∧ svPly (t.cpu c).svl = 2 ^ ply.toNat ∧ (t.cpu c).vstart = 0 ∧
        (t.cpu c).v = (s.cpu c).v ∧ (t.cpu c).fstat = (s.cpu c).fstat) ∧
    (12 < ty.toNat → ∃ t e, exec (.setvl c rd rs1 ty ply) s = .next t ∧ trapped c 1 e s t))

/-- R294, R295: what a short-vector instruction with legal operands leaves when no element stops: its ply of vd, FSTAT,
VSTART 0 and the PC; nothing else changes. VGET (0x15) writes an element to rd. That VSTART counts elements of the destination in
the wide and dot forms, and that VGET does not look at it, is the model's reading, log entry 46. -/
def Obligations.ShortVectorsWriteVd : Prop :=
  ∀ (s : State) (c : CoreId) (sat : Bool) (vd va vb : RegId),
    let u := s.cpu c
    let t0 := svType u.svl
    let f := svPly u.svl
    let n := svLen u.svl
    let w := tyWidth t0
    let env := (s.begun c).fpEnv c sat
    let i := bvFld u.vstart 0 8
    let a := u.plyGet va.toNat f
    let b := u.plyGet vb.toNat f
    let d := u.plyGet vd.toNat f
    let runs (ins : Instr) (fd m width : Nat) (g : Nat → ERes) : Prop :=
      let r := svRun g width (m - i) i (u.plyGet vd.toNat fd) 0
      r.2.2 = none → ∃ t, exec ins s = .next t ∧ ranTo c (fun x => { x with cpu := { x.cpu.plySet vd.toNat fd r.1 with
        fstat := x.cpu.fstat ||| BitVec.ofNat 64 r.2.1, vstart := 0, pc := s.pc c + 4 } }) s t
    (∀ func : BitVec 6, svAluIllegal u.svl func.toNat vd va vb = false →
      (func.toNat < 0x13 → s.issues c [] = true →
        runs (.shortVectorAlu c func sat vd va vb) f n w fun j => svAlu func.toNat t0 0 env (elGet a j w) (elGet b j w)) ∧
      (func = 0x13 → s.issues c [] = true →
        runs (.shortVectorAlu c func sat vd va vb) (max 1 (f * tySize vb.toNat / tySize t0)) n (tyWidth vb.toNat) fun j =>
          eCvt t0 vb.toNat env (elGet a j w)) ∧
      (func = 0x14 → s.issues c [va] = true →
        runs (.shortVectorAlu c func sat vd va vb) f n w fun _ => some ((s.g c va).toNat % 2 ^ w, 0)) ∧
      (func = 0x15 → s.issues c [vd, vb] = true →
        let x := elGet a (s.g c vb).toNat w
        ∃ t, exec (.shortVectorAlu c func sat vd va vb) s = .next t ∧
          ranTo c (fun y => { y with cpu := { y.cpu.set vd
            (if n ≤ (s.g c vb).toNat then 0 else if tyInt t0 && tySigned t0 then sext64 w x else BitVec.ofNat 64 x) with
            vstart := 0, pc := s.pc c + 4 } }) s t)) ∧
    (∀ (func : BitVec 4) (q : BitVec 6), svMulIllegal u.svl func.toNat q.toNat vd va vb = false → s.issues c [] = true →
      let i1 : Instr := .shortVectorMultiply c func q sat vd va vb
      let wide := (tyWide t0).getD 0
      let dd := u.plyGet vd.toNat (2 * f)
      let group (x m j : Nat) : List Nat := (List.range m).map fun e => if m * j + e < n then elGet x (m * j + e) w else 0
      (func = 0 → runs i1 f n w fun j => eMul t0 env q.toNat (elGet a j w) (elGet b j w)) ∧
      (func = 1 ∨ func = 2 ∨ func = 3 →
        runs i1 f n w fun j => eFma (func.toNat - 1) t0 env q.toNat (elGet a j w) (elGet b j w) (elGet d j w)) ∧
      (func = 4 → runs i1 (2 * f) n (2 * w) fun j => eWmul t0 wide env (elGet a j w) (elGet b j w) none) ∧
      (func = 5 → runs i1 (2 * f) n (2 * w) fun j => eWmul t0 wide env (elGet a j w) (elGet b j w) (some (elGet dd j (2 * w)))) ∧
      (func = 6 → runs i1 f (ceilDiv n 4) 32 fun j =>
        eDot t0 t0 (if t0 = 1 then 5 else 4) env (group a 4 j) (group b 4 j) (elGet d j 32)) ∧
      (func = 7 → runs i1 f (ceilDiv n 2) 32 fun j =>
        eDot t0 t0 (if t0 = 3 then 5 else 10) env (group a 2 j) (group b 2 j) (elGet d j 32)) ∧
      (func = 8 ∨ func = 9 →
        runs i1 f n w fun j => eCmul (decide (func = 9)) t0 t0 env q.toNat (elGet a j w) (elGet b j w) none) ∧
      (func = 10 ∨ func = 11 →
        runs i1 f n w fun j => eCmul (decide (func = 11)) t0 t0 env q.toNat (elGet a j w) (elGet b j w) (some (elGet d j w))))

/-- R147, R148, R296: the short-vector loads and stores: elements VSTART to LEN − 1 in order at their offsets; when every
element is served the ply holds what was loaded, VSTART is 0 and the PC goes on; a fault leaves VSTART at its element. -/
def Obligations.ShortVectorMemory : Prop :=
  ∀ (s : State) (c : CoreId) (v rs1 ix : RegId) (seg : SegId) (off : BitVec 11) (chk : ElemCheck), s.issues c [rs1] = true →
    let b := s.begun c
    let u := b.cpu c
    let f := svPly u.svl
    let size := tySize (svType u.svl)
    let i := bvFld u.vstart 0 8
    let unit : Nat → DWord := fun j => s.g c rs1 + BitVec.ofInt 64 (off.toInt + j * size)
    let indexed : Nat → DWord := fun j => s.g c rs1 + BitVec.ofNat 64 (elGet (u.plyGet ix.toNat 4) j 32 * size)
    let run (whole store : Bool) (at_ : Nat → DWord) : SvEnd :=
      State.svMem c seg size at_ store (if store then fun _ => .ok else elemData chk) (svPart whole size i (svLen u.svl))
        (svLen u.svl - i) i (u.plyGet v.toNat f) b
    plyOk v f = true →
    (∀ (ins : Instr) (whole store : Bool) (at_ : Nat → DWord),
      ((ins, whole, store, at_) = (.vld c v rs1 seg ⟨off, chk⟩, true, false, unit) ∨
        (ins, whole, store, at_) = (.vst c v rs1 seg off, true, true, unit) ∨
        plyOk ix 4 = true ∧ svLen u.svl ≤ 16 ∧
          ((ins, whole, store, at_) = (.vldx c v rs1 seg ⟨ix, chk⟩, false, false, indexed) ∨
            (ins, whole, store, at_) = (.vstx c v rs1 seg ix, false, true, indexed))) →
      (∀ (vec : Nat) (s1 : State), run whole store at_ = .done vec s1 →
        ∃ t, exec ins s = .next t ∧ t.mem = s1.mem ∧ (t.cpu c).vstart = 0 ∧ t.pc c = s1.pc c + 4 ∧ (∀ r, t.g c r = s1.g c r) ∧
          (t.cpu c).v = (if store then (s1.cpu c).v else ((s1.cpu c).plySet v.toNat f vec).v)) ∧
      (∀ (j code : Nat) (a : DWord) (vec : Nat) (s1 : State), run whole store at_ = .fault j code a vec s1 →
        ∃ t, exec ins s = .next t ∧ t.mem = s1.mem ∧ (t.cpu c).vstart = BitVec.ofNat 64 j ∧ (t.cpu c).eaddr = a ∧
          (t.cpu c).epc = s1.pc c))

/-! ## The queue port and the check unit of a core (08 R298, R299, 13 R399 to R402) -/

/-- R298, Table 8-18: the CP1 instructions on a queue that the core reaches and no region scrub holds. -/
def Obligations.QueuePortInstructions : Prop :=
  ∀ (s : State) (c : CoreId) (rd rq rs2 : RegId) (seg : SegId) (chk : CellCheck) (data : DataCheck) (fails : Bool),
    let b := s.begun c
    let q := (s.g c rq).toNat
    q < 65536 → b.reachesQueue (coreMaster c) q = true → b.regionHolds q = false →
    (s.issues c [rd, rq] = true →
      (∃ t, exec (.qmark c rd rq) s = .next t ∧ t = (b.markQueue q).result c rd (if b.qTakes q false then 0 else 1)) ∧
      (∃ t, exec (.qrewind c rd rq) s = .next t ∧ t = (b.rewindQueue q).result c rd (if b.qTakes q false then 0 else 1)) ∧
      (∃ t, exec (.qflush c rd ⟨rq, fails⟩) s = .next t ∧ t = if b.linkBreaks q fails then (b.breakQueue q).result c rd 1
        else (b.flushQueue q).result c rd (if b.qTakes q true then 0 else 1)) ∧
      (∃ t, exec (.qstat c rd rq) s = .next t ∧ wrote c rd (BitVec.ofNat 64 (s.queue q).statusWord) s t)) ∧
    (s.issues c [rd, rq, rs2] = true →
      (∀ (v : Nat) (s1 : State), b.elemRead c seg (s.g c rs2 &&& ~~~63) 64 false data = .done v s1 → s1.g c rq = s.g c rq →
        s1.reachesQueue (coreMaster c) q = true → s1.regionHolds q = false →
        ∃ t, exec (.qpush c rd rq rs2 ⟨seg, data⟩) s = .next t ∧
          t = (s1.cp1Push c q (BitVec.ofNat 512 v)).2.result c rd (BitVec.ofNat 64 (s1.cp1Push c q (BitVec.ofNat 512 v)).1)) ∧
      (∀ (s0 s2 : State), b.elemWrite c seg (s.g c rs2 &&& ~~~63) 64 0 = .done () s0 →
        (b.cp1Pop c q chk).2.elemWrite c seg (s.g c rs2 &&& ~~~63) 64 (popWord (b.cp1Pop c q chk).1) = .done () s2 →
        ∃ t, exec (.qpop c rd rq rs2 seg chk) s = .next t ∧
          t = s2.result c rd (BitVec.ofNat 64 (popLen (b.cp1Pop c q chk).1))) ∧
      (let r := b.releaseQueue q (s.g c rs2).toNat
        ∃ t, exec (.qrelease c rd rq rs2 ⟨0, fails⟩) s = .next t ∧
          t = if b.linkBreaks q fails then (b.breakQueue q).result c rd 0 else r.2.result c rd (BitVec.ofNat 64 r.1)))

/-- R299, R303, R400, R402, Tables 9-4, 13-6: the CP2 instructions of a spindle. CKRD and CKALIVE issue, and their results
wait among the operations in flight, 3 and 2 cycles long; one that is due by a cycle writes its register. -/
def Obligations.CheckUnitInstructions : Prop :=
  ∀ (s : State) (k : Spindle) (rd rs1 : RegId) (poly : BitVec 2) (nM1 : BitVec 3),
    let c := s.check k.toNat
    let v := s.g k.toNat rs1
    let pend (w : DWord) (n : Nat) : PendRes :=
      { unit := .cp2, busy := false, writes := [(rd, w)], flags := 0, due := some (s.clock.u + n) }
    let sent (w : DWord) (n : Nat) (t : State) : Prop := ranTo k.toNat (fun x => { x with
      results := x.results ++ [pend w n], cpu := { x.cpu with pc := s.pc k.toNat + 4 } }) s { t with checks := s.checks }
    (∀ (x : Core) (r : PendRes) (due u : Nat), x.results = [r] → r.due = some due →
      x.landCp2 u = if due ≤ u then { x with cpu := x.cpu.complete r, results := [] } else x) ∧
    (s.issues k.toNat [rd] = true → ∃ t, exec (.ckrd k rd) s = .next t ∧ sent (c.r.setWidth 64) 3 t ∧ t.checks = s.checks) ∧
    (s.issues k.toNat [rs1] = true →
      (∃ t, exec (.ckwr k rs1) s = .next t ∧ t.check k.toNat = { c with r := BitVec.ofNat 32 (v.toNat % 2 ^ crcWidth c.poly.toNat) } ∧
        jumped k.toNat (s.pc k.toNat + 4) s { t with checks := s.checks }) ∧
      (∃ t, exec (.ckupd k rs1 nM1) s = .next t ∧
        (let r := (bytesOfNat (nM1.toNat + 1) v.toNat).foldl (crcByte c.poly.toNat) c.r.toNat;
          t.check k.toNat = { c with r := BitVec.ofNat 32 r }) ∧
        jumped k.toNat (s.pc k.toNat + 4) s { t with checks := s.checks })) ∧
    (s.issues k.toNat [] = true → ∃ t, exec (.ckpoly k poly) s = .next t ∧
      t.check k.toNat = { c with poly := poly, r := (if poly = 2 then 0xFFFF else if poly = 3 then 0xB704CE else 0xFFFFFFFF) } ∧
      jumped k.toNat (s.pc k.toNat + 4) s { t with checks := s.checks }) ∧
    (s.issues k.toNat [rd, rs1] = true →
      let x : Byte := v.setWidth 8
      let d := (x - c.lv).toNat
      (c.v = false ∨ d = 1 → ∃ t, exec (.ckalive k rd rs1) s = .next t ∧ sent 0 2 t ∧ t.check k.toNat = { c with lv := x, v := true }) ∧
      (c.v = true → d = 0 → ∃ t, exec (.ckalive k rd rs1) s = .next t ∧ sent 1 2 t ∧ t.check k.toNat = c) ∧
      (c.v = true → 2 ≤ d → d < 128 → ∃ t, exec (.ckalive k rd rs1) s = .next t ∧
        sent (BitVec.ofNat 64 (2 + 256 * (d - 1))) 2 t ∧ t.check k.toNat = { c with lv := x }) ∧
      (c.v = true → 128 ≤ d → ∃ t, exec (.ckalive k rd rs1) s = .next t ∧ sent 3 2 t ∧ t.check k.toNat = c))

/-! ## Vector operations (03, 04 R163, 08 R297) -/

/-- R102, R106, R133, R138: an issue into a free slot copies the four descriptors, VLEN, VPARAM and VFCTL, and the next
issue takes the next slot; while the sequencer is halted the operation is QUEUED, a fault found at its issue notwithstanding
(that VRESUME records the fault then is the model's reading, log entry 49); otherwise it runs, or with such a fault it is FAULTED
and the sequencer halts. No other slot works where the sequencer is halted, or halts. -/
def Obligations.VopIssueFillsSlot : Prop :=
  ∀ (s : State) (k : Spindle) (opc : BitVec 10) (d a b e : SlotId), s.issues k.toNat [] = true → vopListed opc.toNat = true →
    let q := s.seqr k.toNat
    let n := q.next % 16
    let desc (r : SlotId) : Desc := tabGet 0 q.sd r.toNat
    let x : VSlot := { state := .queued, opc := opc, d := desc d, a := desc a, b := desc b, c := desc e, vlen := q.vlen,
                       vparam := q.vparam, vfctl := s.vfctlOf k.toNat q.vfctl, upc := s.vEntry k.toNat opc.toNat false }
    let f := issueFault { q.setSlot n x with next := (n + 1) % 16 } x.ops
    (q.slot n).state = .free ∨ (q.slot n).state = .done →
    (q.halted = false ∧ f = none ∨ ∀ m, m ≠ n → (q.slot m).state.works = false) →
    ∃ t, exec (.vopIssue k opc d a b e) s = .next t ∧ t.pc k.toNat = s.pc k.toNat + 4 ∧ (∀ r, t.g k.toNat r = s.g k.toNat r) ∧
      (t.seqr k.toNat).next = (n + 1) % 16 ∧ (∀ m, m ≠ n → (t.seqr k.toNat).slot m = q.slot m) ∧
      (t.seqr k.toNat).slot n = (match f with
        | none => { x with state := if q.halted then .queued else .running }
        | some code => if q.halted then { x with state := .queued, recheck := true }
          else { x with state := .faulted, fcode := BitVec.ofNat 4 code }) ∧
      (t.seqr k.toNat).halted = (q.halted || f.isSome) ∧ t.mem = s.mem

/-- R103: an OPC that Table 3-9 does not list raises Illegal Instruction at the instruction, and no slot is taken. -/
def Obligations.VopUnlistedIllegal : Prop :=
  ∀ (s : State) (k : Spindle) (opc : BitVec 10) (d a b e : SlotId), s.issues k.toNat [] = true → vopListed opc.toNat = false →
    ∃ t w, exec (.vopIssue k opc d a b e) s = .next t ∧ trapped k.toNat 1 w s t ∧ t.seqrs = s.seqrs ∧
      (t.cpu k.toNat).epc = s.pc k.toNat

/-- R104, R137: a step of an elementwise operation all of whose elements have values, once the ports have fetched what they
can, writes them in order, moves ELEM past them, and ORs their flags into the slot's, unless a word of a microcode patch waits; a
completed operation whose writes are acknowledged becomes DONE and gives its flags to VFSTAT. That a step from an ELEM inside a
group
covers a whole group's number of elements is the model's choice, log entry 123. -/
def Obligations.VopStepAndDone : Prop :=
  ∀ (s : State) (k : Spindle) (n : SlotId) (chk : ElemCheck) (cell : CellCheck) (rest : List (SlotId × ElemCheck)),
    let q := s.seqr k.toNat
    let x := q.slot n.toNat
    let v := x.ops
    s.vActive k.toNat = true → x.state = .running ∨ x.state = .waiting →
    s.uBlocked k.toNat n.toNat v .map = false →
    (∀ (ua ub uc : Bool) (rows : List (Nat × VRow)), vopInfo v.opc = some (.map, ua, ub, uc) → x.elem < v.total →
      let m := min (v.stepLen .map) (v.vlen - x.elem)
      let u := s.vFill k.toNat n.toNat x ((List.range m).flatMap fun j => v.reads (x.elem + j))
      q.halted = false → s.tapRoom k.toNat n.toNat v.d m = true → s.vRoom k.toNat n.toNat v = true →
      rowRun (u.vMapRow k.toNat n.toNat x v chk) m x.elem [] = some (rows, none) →
      ∃ t, exec (.vopStep k n ⟨chk, cell, rest⟩) s = .next t ∧
        ((t.seqr k.toNat).slot n.toNat).elem = x.elem + rows.length ∧ ((t.seqr k.toNat).slot n.toNat).state = .running ∧
        ((t.seqr k.toNat).slot n.toNat).vflags = x.vflags ||| BitVec.ofNat 8 (rowFlags rows) ∧
        t.mem = (rows.foldl (fun u r => match r.2 with | .out i val _ => u.vPut k.toNat n.toNat v .map i val | _ => u) u).mem ∧
        (∀ c, t.cpu c = (rows.foldl (fun u r => match r.2 with | .out i val _ => u.vPut k.toNat n.toNat v .map i val | _ => u) u).cpu c)) ∧
    (v.total ≤ x.elem → (s.vClose k.toNat n.toNat).vWritten k.toNat n.toNat = true →
      ∃ t, exec (.vopDone k n) s = .next t ∧ ((t.seqr k.toNat).slot n.toNat).state = .done ∧
        ((t.seqr k.toNat).slot n.toNat).aux = vResult x ∧ (t.seqr k.toNat).vfstat = q.vfstat ||| x.vflags.setWidth 64 ∧
        t.cores = s.cores ∧ t.mem = s.mem ∧ (t.seqr k.toNat).halted = q.halted)

/-- R105, R140, R141: VWAIT writes the result word of a slot that is FREE or DONE, and all ones while the sequencer is
halted, when VWAITALL too returns at once; VRESUME runs a stopped slot on; VDISCARD frees every slot that is not DONE and
unbinds every tap. -/
def Obligations.VopWaitResumeDiscard : Prop :=
  ∀ (s : State) (k : Spindle) (rd : RegId) (n : SlotId),
    let q := s.seqr k.toNat
    (s.issues k.toNat [rd] = true →
      (q.halted = true → ∃ t, exec (.vwait k rd n) s = .next t ∧ wrote k.toNat rd (BitVec.allOnes 64) s t) ∧
      (q.halted = false → (q.slot n.toNat).state = .free ∨ (q.slot n.toNat).state = .done →
        ∃ t, exec (.vwait k rd n) s = .next t ∧ wrote k.toNat rd (BitVec.ofNat 64 (q.slot n.toNat).aux) s t)) ∧
    (s.issues k.toNat [] = true →
      (q.halted = true ∨ q.quiet = true → ∃ t, exec (.vwaitAll k) s = .next t ∧ jumped k.toNat (s.pc k.toNat + 4) s t) ∧
      (q.halted = false → ∃ t, exec (.vresume k) s = .next t ∧ jumped k.toNat (s.pc k.toNat + 4) s t) ∧
      (q.halted = true → (q.slot n.toNat).state = .stopped →
        (∀ m, m ≠ n.toNat → (q.slot m).state = .free ∨ (q.slot m).state = .done) →
        ∃ t, exec (.vresume k) s = .next t ∧ t.pc k.toNat = s.pc k.toNat + 4 ∧ (t.seqr k.toNat).halted = false ∧
          ((t.seqr k.toNat).slot n.toNat).state = .running ∧ ((t.seqr k.toNat).slot n.toNat).elem = (q.slot n.toNat).elem ∧
          ∀ m, m ≠ n.toNat → (t.seqr k.toNat).slot m = q.slot m) ∧
      (∃ t, exec (.vdiscard k) s = .next t ∧ t.pc k.toNat = s.pc k.toNat + 4 ∧ (∀ m, (t.seqr k.toNat).tap m = none) ∧
        (∀ e ∈ (t.seqr k.toNat).slots, e.2.state = .done) ∧ (∀ e ∈ q.slots, e.2.state = .done → e ∈ (t.seqr k.toNat).slots) ∧
        t.mem = (s.spill q).mem ∧ ((∀ e ∈ q.slots, e.2.outq = [] ∧ e.2.wbuf = []) → t.mem = s.mem) ∧ ∀ r, t.g k.toNat r = s.g k.toNat r))

/-- Tables 3-1 to 3-7, 8-17: MFC0 reads, and MTC0 writes, the registers of CP0; a slot's registers take a write only while
the slot is STOPPED or FAULTED. 04 R163, 05 R193, R195: a request that is the oldest of its pseudo-channel, and that the
octets serve, leaves the entries; a read's 256-byte unit reaches the stream port, or the load, of the running skein it
belongs to, and a write lands (but for a trace unit's on a retired pseudo-channel, which R199 leaves unserved). -/
def Obligations.SequencerAndHbmRequests : Prop :=
  (∀ (s : State) (k : Spindle) (rd rs1 cr : RegId) (h : Bool),
     let q := s.seqr k.toNat
     let x := q.slot q.vslotsel
     (s.issues k.toNat [rd] = true →
       (∀ (n : RegId) (v : DWord),
         (n, v) ∈ [(0x10#5, BitVec.ofNat 64 q.vlen), (0x11#5, q.vparam), (0x12#5, s.vfctlOf k.toNat q.vfctl), (0x13#5, q.vfstat),
           (0x14#5, BitVec.ofNat 64 q.vstat), (0x15#5, BitVec.ofNat 64 q.vslotsel), (0x19#5, x.acc), (0x1A#5, BitVec.ofNat 64 x.aux),
           (0x16#5, BitVec.ofNat 64 (s.clock.u % 8 + s.clock.u % 9 * 16 + s.clock.u / 9 % 8 * 256))] →
         ∃ t, exec (.mfc0 k rd n false) s = .next t ∧ wrote k.toNat rd v s t) ∧
       (cr.toNat < 16 → ∃ t, exec (.mfc0 k rd cr h) s = .next t ∧
         wrote k.toNat rd ((tabGet 0 q.sd cr.toNat).extractLsb' (if h then 64 else 0) 64) s t)) ∧
     (s.issues k.toNat [rs1] = true →
       let v := s.g k.toNat rs1
       let live := x.state = .stopped ∨ x.state = .faulted
       (∀ (n : RegId) (y : Seqr),
         ((n, y) ∈ [(0x11#5, { q with vparam := v }), (0x13#5, { q with vfstat := v &&& 0xFF }), (0x15#5, { q with vslotsel := v.toNat % 16 })] ∨
           (n = 0x10 ∧ v.toNat % 2 ^ 25 ≤ 16777216 ∧ y = { q with vlen := v.toNat % 2 ^ 25 }) ∨
           (n = 0x18 ∧ live ∧ y = q.setSlot q.vslotsel { x with elem := v.toNat % 2 ^ 25 }) ∨
           (n = 0x19 ∧ live ∧ y = q.setSlot q.vslotsel { x with acc := v }) ∨
           (n = 0x1A ∧ live ∧ y = q.setSlot q.vslotsel { x with aux := v.toNat % 2 ^ 25 }) ∨
           (n = 0x18 ∨ n = 0x19 ∨ n = 0x1A) ∧ ¬live ∧ y = q ∨
           ((n = 0x14 ∨ n = 0x16 ∨ n = 0x1B) ∧ y = q)) →
         ∃ t, exec (.mtc0 k rs1 n false) s = .next t ∧ t.seqr k.toNat = y ∧ jumped k.toNat (s.pc k.toNat + 4) s { t with seqrs := s.seqrs }) ∧
       (cr.toNat < 16 → ∃ t dsc, exec (.mtc0 k rs1 cr h) s = .next t ∧ t.seqr k.toNat = { q with sd := tabSet 0 q.sd cr.toNat dsc } ∧
         (∀ i, i < 64 → dsc.getLsbD ((if h then 64 else 0) + i) = (v.getLsbD i && descMask.getLsbD ((if h then 64 else 0) + i))) ∧
         (∀ i, i < 64 → dsc.getLsbD ((if h then 0 else 64) + i) =
           ((tabGet 0 q.sd cr.toNat).getLsbD ((if h then 0 else 64) + i) && descMask.getLsbD ((if h then 0 else 64) + i)))))) ∧
  (∀ (s : State) (k : Spindle) (e : BitVec 5) (r : HbmReq),
     (s.reqs k.toNat)[e.toNat]? = some r → ((s.reqs k.toNat).take e.toNat).any (fun y => y.block % 128 = r.block % 128) = false →
     s.octetServes k.toNat (r.block % 128) r.stamp = true →
     (∀ m, ((s.seqr k.toNat).slot m).outq = []) → (s.disp k.toNat).traceq = [] →
     ∃ t, exec (.hbmRequestService k e .ok) s = .next t ∧
       t.reqs k.toNat = (s.reqs k.toNat).take e.toNat ++ (s.reqs k.toNat).drop (e.toNat + 1) ∧
       t.mem = (if r.write && !(r.src = .trace && s.pcRetired (r.block * 256)) then s.pokeAll r.data else s).mem ∧
       (r.dropped = true → r.write = false → { t with hbmReqs := s.hbmReqs, disps := s.disps } = s ∧ (r.ctx = none → t.disps = s.disps)) ∧
       (r.dropped = false → r.write = false → r.ctx = s.vCtx k.toNat → (s.disp k.toNat).running ≠ none →
         (∀ n p, r.src = .port n p → (∀ j, t.core j = s.core j) ∧
           t.seqr k.toNat = { s.seqr k.toNat with arrived := (s.seqr k.toNat).arrived ++
             [⟨n, p, r.block, s.vBytes ((s.seqr k.toNat).slot n) (r.block * 256) 256, false, false⟩] }) ∧
         (∀ o v, r.src = .core → (s.cpu k.toNat).outLoad = some o → o.resp = some v → o.waits = 1 →
           (t.cpu k.toNat).outLoad = some { o with resp := some (natOfBytes (s.bytes o.addr.toNat (ldSize o.op))), waits := 0 })))

/-! ## Streams and dispatch (02, 15 R434 to R437) -/

/-- R7: a refused open-stream request changes nothing: reading the entry and writing its answer change the rings, what the
host was sent, the lines of the CXL cache, and a pending MSI-X vector or, where its message may not go, the PCIe source. -/
def Obligations.RefusedOpenChangesNothing : Prop :=
  ∀ (s : State) (p : PartId) (entry : Rec64), s.ringReady p.toNat 0 = true → recByte entry 0 1 = 1 →
    let x := (s.ringTake p.toNat 0).openReq p.toNat (reqOf entry)
    x.1 ≠ 0 →
    ∃ t, exec (.openStream p entry) s = .next t ∧
      t = ((s.ringTake p.toNat 0).redeem p.toNat 1).anqAnswer p.toNat x.1 (recByte entry 2 2) x.2.1 ∧
      { t with rings := s.rings, sent := s.sent, cxlCache := s.cxlCache, msix := s.msix, l2 := s.l2 } = s

/-- R76, Table 2-6: an accepted open-stream request has passed the fourteen tests, the last five (R67 to R70, R73) on the assigned
spindle, of which one of a partition in M3 has none and one in M2 has its binding for R67 to R69 (07 R251). With ANY the spindle is
the one of least weight among those that pass, of equal ones the lowest; that the weight counts streams bound to a card is the
model's
choice, log entry 161. The new stream's context and bookkeeping hold the request, and its queues are bound with their credits. Which
FREE context it receives is a free choice; the chosen one was FREE and is no pricking's entry. -/
def Obligations.AcceptedOpenMakesContext : Prop :=
  ∀ (s : State) (p : PartId) (r : Req), tabWf (fun _ => (0 : Rec64)) s.store = true → s.prickUnits ≤ 256 →
    let x := s.openReq p.toNat r
    let c := x.2.1 % 2 ^ 18
    let k := x.2.1 / 2 ^ 18 % 2 ^ 7
    let e := x.2.2.entry c
    let y := s.prick r.prick
    let m := (s.part p.toNat).mode.toNat
    let new : Load := { period := r.period, deadline := r.deadline, be := prBe y, sh := prShuttleNs y }
    let l := new :: s.sigma k
    x.1 = 0 → r.period < 2 ^ 30 → r.deadline < 2 ^ 30 → r.inq < 2 ^ 16 → r.outq < 2 ^ 16 → r.prick < 2 ^ 16 →
    (m ≠ 3 →
      (∀ pc, pc < 128 → (bitOf (prPcMask y) pc = true → prSh y ≤ 8 * s.octetsOf p.toNat k pc) ∧ (m = 5 → s.octetsOf p.toNat k pc ≠ 0)) ∧
      shuttleOk l = true ∧
      (m = 2 → ∃ b, s.bindTest k r = .inl b ∧ (x.2.2.aux c).cardEntry = some b) ∧
      (m ≠ 2 → (l.map fun z => z.deadline).eraseDups.length ≤ 31 ∧ rateOk l = true ∧ s.spindleTime s.admitStep l = none)) ∧
    (r.any = false → k = r.spindle) ∧
    (r.any = true → k ∈ s.inService p.toNat ∧ ∀ j ∈ s.inService p.toNat, ∀ b, s.tryCandidate p.toNat j r = .pass b →
      Frac.lt (s.candWeight p.toNat j r) (s.candWeight p.toNat k r) = false ∧
      (Frac.lt (s.candWeight p.toNat k r) (s.candWeight p.toNat j r) = true ∨ k ≤ j)) ∧
    (s.part p.toNat).pend = false ∧ (s.part p.toNat).resetting = false ∧
    (x.2.2.aux c).phase = (if r.sporadic then 0 else r.phase) ∧ ctxJitter e = (if r.sporadic then 0 else r.jitter) ∧
    ctxLatePol e = r.late ∧ ctxOffset e = (if r.timed then r.offset else 0) ∧ rfld e 0 32 6 + 1 = r.odepth ∧
    ctxEport e = (if r.timed then r.eport else 0) ∧
    (x.2.2.queue r.inq).inb = some c ∧ (x.2.2.queue r.inq).clim = (s.queue r.inq).clim + prInCred y ∧
    (x.2.2.queue r.outq).outb = some c ∧ (x.2.2.queue r.outq).clim = (s.queue r.outq).clim + prOutCred y * r.odepth ∧
    ctxState (s.entry c) = stFree ∧ c < 262144 - s.prickCount ∧
    s.paramField p.toNat r = none ∧ s.holdoff = none ∧ s.prickItem p.toNat r = none ∧ s.hasContext p.toNat = true ∧
    s.queueFail p.toNat r = none ∧ s.creditsShort p.toNat r = none ∧ s.hankFail p.toNat (prHankMask (s.prick r.prick)) = none ∧
    s.egressFail r = none ∧ (1 ≤ (s.part p.toNat).mode.toNat ∧ (s.part p.toNat).mode.toNat ≤ 5) ∧
    ctxState e = (if (s.part p.toNat).mode = 3 then stBackground else stOpen) ∧ ctxPart e = p.toNat ∧ ctxSpindle e = k ∧
    ctxPrick e = r.prick ∧ ctxPeriod e = r.period ∧ ctxDeadline e = r.deadline ∧ ctxInq e = r.inq ∧ ctxOutq e = r.outq ∧
    ctxSporadic e = r.sporadic ∧ ctxTimed e = r.timed

/-- R58 to R60, R436: an open request that is accepted, and a close, a forced close and a resume of a live stream of the
partition, are answered ACCEPTED after their effect; a resume returns a SUSPENDED stream to OPEN, with its count of consecutive
overruns at 0; that one of a partition in M3 returns to BACKGROUND is the model's reading, log entry 127. -/
def Obligations.StreamRequestsAnswered : Prop :=
  ∀ (s : State) (p : PartId) (entry : Rec64), s.ringReady p.toNat 0 = true →
    let u := s.ringTake p.toNat 0
    let r := reqOf entry
    let tag := recByte entry 2 2
    let live := ctxState (s.entry r.ctx) = stOpen ∨ ctxState (s.entry r.ctx) = stSuspended ∨
      ctxState (s.entry r.ctx) = stBackground ∨ ctxState (s.entry r.ctx) = stDraining
    (r.op = 1 → (u.openReq p.toNat r).1 = 0 → ∃ t, exec (.openStream p entry) s = .next t ∧
      t = ((u.openReq p.toNat r).2.2.redeem p.toNat 1).anqAnswer p.toNat 0 tag (u.openReq p.toNat r).2.1) ∧
    (r.rsvd = 0 → (s.part p.toNat).resetting = false → r.ctx < 262144 - s.prickCount → ctxPart (s.entry r.ctx) = p.toNat →
      (r.op = 2 → live → ∃ t, exec (.closeStream p entry) s = .next t ∧ t =
        ((u.closeCtx r.ctx).redeem p.toNat 1).anqAnswer p.toNat 0 tag r.ctx) ∧
      (r.op = 3 → live → ∃ t, exec (.forceClose p entry) s = .next t ∧
        t = ((u.forceCloseStream r.ctx false).redeem p.toNat 1).anqAnswer p.toNat 0 tag r.ctx) ∧
      (r.op = 4 → ctxState (s.entry r.ctx) = stSuspended → ∃ t, exec (.resumeStream p entry) s = .next t ∧
        ctxState (t.entry r.ctx) = (if (s.part p.toNat).mode = 3 then stBackground else stOpen) ∧ rfld (t.entry r.ctx) 0 48 16 = 0 ∧ (∀ c, c ≠ r.ctx → t.entry c = s.entry c) ∧
        t.qe = s.qe ∧ t.disps = s.disps ∧ t.streams = s.streams))

/-- R44, R79, R81: a release event reaches its dispatcher; one that is due becomes a ready skein with deadline r + D and the
pricking's budget, and asks for preemption only when its deadline is strictly earlier than the running guaranteed skein's,
or the running one is background; a held arrival is released at its instant, which counts SEQ and sets RUN. -/
def Obligations.ReleasesBecomeReady : Prop :=
  ∀ (s : State) (k : Spindle) (c : CtxId) (v : RelEvent),
    (s.ctxSpindles c.toNat = [k.toNat] → (s.disp k.toNat).events.find? (fun w => w.ctx = c.toNat && !w.arrived) = some v →
      ∃ t, exec (.releaseEvent c) s = .next t ∧ { v with arrived := true } ∈ (t.disp k.toNat).events ∧
        (∀ w ∈ (s.disp k.toNat).events, w ≠ v → w ∈ (t.disp k.toNat).events) ∧ { t with disps := s.disps } = s) ∧
    ((s.disp k.toNat).drain = false → s.dueEvent k.toNat = some v →
      ∃ t x, exec (.skeinReady k) s = .next t ∧ (t.disp k.toNat).ready = (s.disp k.toNat).ready ++ [x] ∧
        x.ctx = v.ctx ∧ x.seq = v.seq ∧ x.rel = v.rel ∧ x.dl = v.rel + ctxDeadline (s.entry v.ctx) ∧
        x.budget = prBe (s.prick (ctxPrick (s.entry v.ctx))) ∧ (t.disp k.toNat).events = (s.disp k.toNat).events.erase v ∧
        (∀ y, (s.disp k.toNat).running = some y → (s.disp k.toNat).preempt = false → (t.disp k.toNat).preempt = true →
          y.bg = true ∨ x.dl < y.dl) ∧
        (t.disp k.toNat).running = (s.disp k.toNat).running ∧ t.mem = s.mem ∧ t.cores = s.cores) ∧
    (∀ (h : HeldArr) (r : List HeldArr), (s.aux c.toNat).held = h :: r → ctxRun (s.entry c.toNat) = false →
      h.instant ≤ s.now → ctxLive (s.entry c.toNat) = true → s.node = .operational →
      ∃ t, exec (.heldRelease c) s = .next t ∧ ctxRun (t.entry c.toNat) = true ∧
        rfld (t.entry c.toNat) 7 16 32 = (rfld (s.entry c.toNat) 7 16 32 + 1) % 2 ^ 32 ∧
        (∃ w ∈ (t.disp (s.releaseSpindle c.toNat h.instant)).events, w.ctx = c.toNat ∧ w.rel = h.instant ∧ w.arrived = false) ∧
        (t.aux c.toNat).held.length = r.length ∧ t.qe = s.qe ∧ t.mem = s.mem)

/-- R61, Table 2-4: the windows of a PERIODIC stream: an arrival up to Jr after a window's start is on time; in the gap
after it the first half belongs to the window before, late, and the rest to the window after, early; a window that is used
makes the arrival excess. One timestamped in the period before φ belongs to window −1 or its gap alike. R61 to R63, 06 R223: what
a push into an input-bound queue does: an arrival on time releases a skein at its timestamp, a late one under LATE a late
skein; an early one, and one that finds a skein outstanding or an arrival held, is held with HELD; a late one under SKIP, an
excess one
and one outside OPERATIONAL leave their item's place, count a skip and release nothing, and so does one of a SUSPENDED stream, or of
a DRAINING one at or after its close, without a skip. -/
def Obligations.PeriodicArrivalsClassified : Prop :=
  (∀ (ts phase period jitter : Nat) (last : Option Int), 2000 ≤ period → 2 * jitter ≤ period → phase ≤ ts →
    let x := classifyPeriodic ts phase period jitter last
    let n := (ts - phase) / period
    let off := (ts - phase) % period
    let used (m : Nat) : Prop := ∃ l, last = some l ∧ (m : Int) ≤ l
    (off ≤ jitter → ¬used n → x = ⟨.onTime, n, ts⟩) ∧
    (off ≤ jitter → used n → x.kind = .excess) ∧
    (jitter < off → off - jitter ≤ (period - jitter) / 2 → ¬used n → x = ⟨.late, n, ts⟩) ∧
    (jitter < off → off - jitter ≤ (period - jitter) / 2 → used n → x.kind = .excess) ∧
    (jitter < off → (period - jitter) / 2 < off - jitter → ¬used (n + 1) → x = ⟨.early, n + 1, phase + (n + 1) * period⟩) ∧
    (jitter < off → (period - jitter) / 2 < off - jitter → used (n + 1) → x.kind = .excess)) ∧
  (∀ (ts phase period jitter : Nat) (last : Option Int), 2000 ≤ period → 2 * jitter ≤ period → ts < phase → phase ≤ ts + period →
    let x := classifyPeriodic ts phase period jitter last
    let off := ts + period - phase
    let used (m : Int) : Prop := ∃ l, last = some l ∧ m ≤ l
    (off ≤ jitter → ¬used (-1) → x = ⟨.onTime, -1, ts⟩) ∧
    (jitter < off → off - jitter ≤ (period - jitter) / 2 → ¬used (-1) → x = ⟨.late, -1, ts⟩) ∧
    (off - jitter ≤ (period - jitter) / 2 → used (-1) → x.kind = .excess) ∧
    (jitter < off → (period - jitter) / 2 < off - jitter → ¬used 0 → x = ⟨.early, 0, phase⟩) ∧
    (jitter < off → (period - jitter) / 2 < off - jitter → used 0 → x.kind = .excess)) ∧
  (∀ (s : State) (m : Master) (q : QueueId) (item : Rec64) (i : QItem) (c : CtxId),
    let z := s.queue q.toNat
    let e := s.entry c.toNat
    let a := s.aux c.toNat
    let ts := s.mirror 16
    let y := if ctxSporadic e then classifySporadic ts (ctxPeriod e) a.prevRel
      else classifyPeriodic ts a.phase (ctxPeriod e) (ctxJitter e) a.win
    let body : QItem → QItem := fun i => { i with link := none }
    s.reachesQueue m q.toNat = true → s.regionHolds q.toNat = false → s.heldDrops q.toNat = [] → z.state = .active →
    itemOf item = some i → recCont item = false → z.prod.toNat = pushClass m → z.items.length < z.clim → z.inb = some c.toNat →
    s.takeCell.1 ∉ z.items.map (fun i => i.cell) →
    let w := if ctxTimed e then sWindow else 0
    let seq (e : Rec64) : Nat := rfld e 7 16 32
    let runs (f : State → Prop) : Prop := ∃ t, exec (.push m q item) s = .next t ∧ f t
    let kept (t : State) : Prop := (t.queue q.toNat).items.map body = (z.items ++ [{ i with cell := s.takeCell.1 }]).map body
    let still (t : State) : Prop := t.disps = s.disps ∧ seq (t.entry c.toNat) = seq e ∧ ctxRun (t.entry c.toNat) = ctxRun e
    let gone (n : Nat) (t : State) : Prop := (t.queue q.toNat).items.map body = z.items.map body ∧ still t ∧
      (t.aux c.toNat).held = a.held ∧ rfld (t.entry c.toNat) 5 40 16 = (if n = 0 then rfld e 5 40 16 else min (rfld e 5 40 16 + n) 65535)
    let released (late : Bool) (st : BitVec 16) (t : State) : Prop := kept t ∧ (t.aux c.toNat).held = a.held ∧
      ctxRun (t.entry c.toNat) = true ∧ seq (t.entry c.toNat) = (seq e + 1) % 2 ^ 32 ∧
      (let k := s.releaseSpindle c.toNat y.instant
        ∃ v : RelEvent, (t.disp k).events = (s.disp k).events ++ [v] ∧ v.ctx = c.toNat ∧ v.rel = y.instant ∧ v.late = late ∧
          v.status = st ||| s.envStatus k)
    let held (late : Bool) (st : BitVec 16) (t : State) : Prop := kept t ∧ still t ∧ ∃ h : HeldArr, (t.aux c.toNat).held = a.held ++ [h] ∧
      h.instant = y.instant ∧ h.status = st ||| sHeld ∧ h.late = late
    let busy : Prop := ctxRun e = true ∨ a.held ≠ []
    let shut : Prop := ∃ t0, a.closeAt = some t0 ∧ (t0 ≤ y.instant ∨ busy)
    (ctxState e = stSuspended → runs (gone 0)) ∧
    (ctxState e = stOpen ∨ ctxState e = stBackground ∨ ctxState e = stDraining →
      (s.node ≠ .operational → runs (gone 1)) ∧
      (s.node = .operational →
        (y.kind = .excess → runs (gone 1)) ∧
        (y.kind = .late → ctxLatePol e = false → runs (gone 1)) ∧
        (y.kind ≠ .excess → (y.kind = .late → ctxLatePol e = true) → shut → runs (gone 0)) ∧
        (¬shut →
          (y.kind = .onTime → ¬busy → runs (released false 0)) ∧
          (y.kind = .onTime → busy → runs (held false 0)) ∧
          (y.kind = .early → runs (held false (sHeld ||| w))) ∧
          (y.kind = .late → ctxLatePol e = true → ¬busy → runs (released true (sLate ||| w))) ∧
          (y.kind = .late → ctxLatePol e = true → busy → runs (held true (sLate ||| w)))))))

/-- R81, R83, R86, 08 R286, R291: a save at a safe point puts the whole core state, the sequencer and the check channel into
a free save slot, without the reservation; a dispatch of that skein puts them back exactly. With the budget counter at 0 the
overrun takes effect instead. -/
def Obligations.SaveThenRestore : Prop :=
  ∀ (s : State) (k : Spindle) (x : Skein), (s.disp k.toNat).running = some x → (s.disp k.toNat).preempt = true →
    (s.disp k.toNat).ending = false → (s.disp k.toNat).stop = none →
    (s.core k.toNat).run = .executing ∨ (s.core k.toNat).run = .wfi → (s.core k.toNat).results = [] → (s.cpu k.toNat).outLoad = none →
    (x.budget = 0 → ∃ t, exec (.save k) s = .next t ∧ t = s.setDisp k.toNat { s.disp k.toNat with stop := some .overrun }) ∧
    (x.budget ≠ 0 → ∃ t y img, exec (.save k) s = .next t ∧ (t.disp k.toNat).running = none ∧ (t.disp k.toNat).preempt = false ∧
      (t.disp k.toNat).saved = (s.disp k.toNat).saved ++ [((s.disp k.toNat).freeSlot x.bg, y)] ∧ y = { x with image := some img } ∧
      img.cpu = { s.cpu k.toNat with resv := none } ∧ img.seqr = s.seqr k.toNat ∧ img.chk = s.check k.toNat ∧
      (t.core k.toNat).run = .idle ∧ t.mem = s.mem ∧
      (∀ (u : State), u.canDispatch k.toNat = true → (u.disp k.toNat).best = some y → (u.disp k.toNat).handler = false →
        (y.bg = false ∨ (u.disp k.toNat).savedHandler = none) →
        ∃ v, exec (.dispatch k .ok) u = .next v ∧ v.cpu k.toNat = { s.cpu k.toNat with resv := none } ∧
          v.check k.toNat = s.check k.toNat ∧ v.seqr k.toNat = { s.seqr k.toNat with faultAtSave := false } ∧
          ((v.core k.toNat).run = if (s.core k.toNat).run = .wfi then .wfi else .executing)))

/-- R79, R80, R291, 08 Table 8-14: the dispatcher's choice among the skeins it may dispatch: a due one goes first, then the
earliest deadline of a guaranteed skein, then background skeins in release order; and the core state at the first dispatch
of a skein: the segment registers, VBASE, EPC, EST, ECAUSE and EADDR keep their values, and the sequencer and the check
channel are in their start states. -/
def Obligations.DispatchSetsCoreInDeadlineOrder : Prop :=
  (∀ (d : Disp) (x : Skein), d.best = some x →
     x ∈ d.candidates ∧ (∀ y ∈ d.candidates, skeinBefore y x = false) ∧
     ((∀ y ∈ d.candidates, y.due = false) → x.bg = false → ∀ y ∈ d.candidates, y.bg = false → x.dl ≤ y.dl) ∧
     ((∀ y ∈ d.candidates, y.due = false) → x.bg = true → ∀ y ∈ d.candidates, y.bg = true ∧ x.rel ≤ y.rel)) ∧
  (∀ (s : State) (k : Spindle) (x : Skein), s.canDispatch k.toNat = true → (s.disp k.toNat).best = some x → x.image = none →
     (s.disp k.toNat).handler = false → x.bg = false ∨ (s.disp k.toNat).savedHandler = none → x.traced = false →
     let e := s.entry x.ctx
     let p := s.prick (ctxPrick e)
     ∃ t, exec (.dispatch k .ok) s = .next t ∧
       (∃ y, (t.disp k.toNat).running = some y ∧ y.ctx = x.ctx ∧ y.rel = x.rel ∧ y.budget = x.budget) ∧
       x ∉ (t.disp k.toNat).ready ∧ (t.core k.toNat).run = .executing ∧
       t.pc k.toNat = (if prCodeReg p = 0 then BitVec.ofNat 64 (0x8000000000000000 + prEntry p) else BitVec.ofNat 64 (prEntry p)) ∧
       ((t.cpu k.toNat).st = if prCt p || s.inM4 k.toNat then 12 else 4) ∧
       t.g k.toNat 1 = BitVec.ofNat 64 x.ctx ∧ t.g k.toNat 2 = BitVec.ofNat 64 x.seq ∧ t.g k.toNat 3 = BitVec.ofNat 64 x.rel ∧
       t.g k.toNat 4 = BitVec.ofNat 64 x.dl ∧ t.g k.toNat 5 = BitVec.ofNat 64 (ctxInq e) ∧ t.g k.toNat 6 = BitVec.ofNat 64 (ctxOutq e) ∧
       (∀ r : RegId, 7 ≤ r.toNat → t.g k.toNat r = 0) ∧ (t.cpu k.toNat).fstat = 0 ∧ (t.cpu k.toNat).fctl = 0x0C ∧
       (t.cpu k.toNat).svl = 0 ∧ (t.cpu k.toNat).vstart = 0 ∧ (t.cpu k.toNat).sgb = (s.cpu k.toNat).sgb ∧
       (t.cpu k.toNat).sgl = (s.cpu k.toNat).sgl ∧ (t.cpu k.toNat).vbase = (s.cpu k.toNat).vbase ∧
       (t.cpu k.toNat).epc = (s.cpu k.toNat).epc ∧ (t.cpu k.toNat).est = (s.cpu k.toNat).est ∧
       (t.cpu k.toNat).ecause = (s.cpu k.toNat).ecause ∧ (t.cpu k.toNat).eaddr = (s.cpu k.toNat).eaddr ∧
       (t.seqr k.toNat).slots = [] ∧ (t.seqr k.toNat).next = 0 ∧ (t.seqr k.toNat).halted = false ∧
       t.check k.toNat = firstCheck e ∧ ((s.seqr k.toNat).slots = [] → t.mem = s.mem))

/-- R63, R84, R85, R87: a skein whose budget is 0 and whose KEND has not completed is marked to stop with OVERRUN, and a
LATE skein that has not committed by the next window's start, its KEND done or not, with LATE; the abort leaves the spindle
without a running
skein, its slots freed, and what its complete elements had written to HBM written. -/
def Obligations.BudgetAndAbort : Prop :=
  ∀ (s : State) (k : Spindle) (c : CtxId) (x : Skein), (s.disp k.toNat).running = some x →
    (x.budget = 0 → (s.disp k.toNat).ending = false → (s.disp k.toNat).stop = none →
      ∃ t : State, exec (.budgetExpiry k) s = .next t ∧ t = s.setDisp k.toNat { s.disp k.toNat with stop := some .overrun }) ∧
    (∀ cause, (s.disp k.toNat).stop = some cause →
      ∃ (t u : State), exec (.skeinAbort k) s = .next t ∧
        t = u.abortSkein k.toNat { x with hbmSlots := x.hbmSlots + s.spillSlots k.toNat (s.seqr k.toNat) } cause ∧ (u.disp k.toNat).running = none ∧
        (u.disp k.toNat).stop = none ∧ ((u.core k.toNat).run = .idle ∨ (u.core k.toNat).run = .halted) ∧
        (u.seqr k.toNat).slots = [] ∧ (u.seqr k.toNat).taps = [] ∧ (u.cpu k.toNat).resv = none ∧
        u.mem = (s.spill (s.seqr k.toNat)).mem ∧ u.qe = s.qe ∧
        u.store = s.store ∧ u.streams = s.streams) ∧
    (s.ctxSpindles c.toNat = [k.toNat] → x.ctx = c.toNat → x.late = true → (s.disp k.toNat).stop = none →
      (s.disp k.toNat).ready = [] → (s.disp k.toNat).saved = [] → (s.disp k.toNat).events = [] →
      (s.queue (ctxOutq (s.entry c.toNat))).parked = none →
      windowStart (x.win + 1) (s.aux c.toNat).phase (ctxPeriod (s.entry c.toNat)) ≤ s.now →
      ∃ t : State, exec (.lateWindowExpiry c) s = .next t ∧ t = s.setDisp k.toNat { s.disp k.toNat with stop := some .late, ending := false })

/-- R88, R92, 06 R222: a commit with room appends the staged items to the output queue with the status word, DEADLINE_MISSED
when the mirror is past the deadline; without room it is parked, and completes with CREDIT when there is room. Either way
the spindle is left without a skein. 06 R223, R234: a commit into an input-bound queue is one arrival at its time, and a checked
stream's
commit writes CHKVAL. 07 R257 to R259: the items that a recorded skein has popped are written first, the commit waits for its
units, and
its outputs ask for theirs. 15 R447: the frames of a timed stream's commit have their launch times one wire time after the other.
(The first two clauses are of streams that are not timed, not recorded and not checked, whose output queue no other stream reads.)
-/
def Obligations.CommitAppendsOrParks : Prop :=
  (∀ (s : State) (k : Spindle) (x : Skein),
    let e := s.entry x.ctx
    let q := ctxOutq e
    let y := s.queue q
    ctxChkEn e = false → ctxTimed e = false → y.inb = none → y.state = .active →
    ((s.disp k.toNat).running = some x → (s.disp k.toNat).ending = true → x.traced = false → x.tracedItems = [] →
      (s.region y.owner.toNat).scrubbing = false → s.traceWaits k.toNat x.ctx = false →
      (y.items.length + x.staged.length ≤ y.clim →
        let now := s.mirror (k.toNat / 8)
        let st := if x.dl < now then x.status ||| sDeadlineMissed else x.status
        ∃ (t u : State), exec (.commit ⟨k, .ok⟩) s = .next t ∧ t = (u.finishCommit x.ctx x now st).vacate k.toNat ∧
          (u.queue q).items.map (fun i => (i.payload, i.len, i.status, i.seq)) =
            y.items.map (fun i => (i.payload, i.len, i.status, i.seq)) ++ x.staged.map fun i => (i.payload, i.len, st, i.seq)) ∧
      (y.clim < y.items.length + x.staged.length →
        ∃ (t : State) (z : Parked), exec (.commit ⟨k, .ok⟩) s = .next t ∧ (t.queue q).parked = some z ∧ z.items = x.staged ∧ z.dl = x.dl ∧ z.ctx = x.ctx ∧
          (t.queue q).items = y.items ∧ (t.disp k.toNat).running = none ∧ (t.disp k.toNat).ending = false ∧
          (t.core k.toNat).run = .idle)) ∧
    (∀ (n : QueueId) (z : Parked), n.toNat = q → y.parked = some z → z.ctx = x.ctx → (s.region y.owner.toNat).scrubbing = false →
      (s.part (ctxPart e)).records z.rel = false → y.items.length + z.items.length ≤ y.clim →
      let st := if z.dl < s.mirror 16 then z.status ||| sCredit ||| sDeadlineMissed else z.status ||| sCredit
      ∃ (t u : State), exec (.parkedCommitComplete n) s = .next t ∧ t = u.finishCommit x.ctx z.skein (s.mirror 16) st ∧
        (u.queue q).parked = none ∧ (u.queue q).items.length = y.items.length + z.items.length)) ∧
  (∀ (s : State) (k : Spindle) (x x' : Skein),
    let e := s.entry x.ctx
    let q := ctxOutq e
    let y := s.queue q
    let port := ctxEport e
    let u := s.traceFlush k.toNat true
    let now := s.mirror (k.toNat / 8)
    let st := if x.dl < now then x.status ||| sDeadlineMissed else x.status
    let n := x.staged.length
    let brief (i : QItem) := (i.payload, i.len, i.status, i.seq)
    (s.disp k.toNat).running = some x → (s.disp k.toNat).ending = true → y.state = .active → (u.disp k.toNat).running = some x' →
    (u.commitWaits k.toNat = true → ∃ t, exec (.commit ⟨k, .ok⟩) s = .next t ∧ t = u) ∧
    (u.commitWaits k.toNat = false → y.items.length + n ≤ y.clim →
      (∃ (t v : State) (st' : BitVec 16), exec (.commit ⟨k, .ok⟩) s = .next t ∧
        t = (((v.commitArrival q now (if ctxTimed e then 0 else n)).writeChk x.ctx (if ctxChkEn e then some (s.check k.toNat).r else none)).finishCommit
          x.ctx x' now st').vacate k.toNat ∧
        (st' = st ∨ ctxTimed e = true ∧ st' = st ||| sLaunchMissed ||| sEgress) ∧ (v.queue q).inb = y.inb ∧
        (ctxTimed e = false → (v.queue q).items.map brief = y.items.map brief ++ x.staged.map fun i => (i.payload, i.len, st, i.seq)) ∧
        (ctxTimed e = true → x.late = false →
          (∀ i ∈ x.staged, ∃ a len, egressItem i = some (a, len) ∧ s.inOwnHank (k.toNat / 8) (ctxPart e) a len = true) →
          st' = st ∧ ∃ fs, (v.port port).timed = (s.port port).timed ++ fs ∧ fs.length = n ∧
            ∀ (j : Nat) (f : TxFrame) (i : QItem) (a len : Nat), fs[j]? = some f → x.staged[j]? = some i → egressItem i = some (a, len) →
              f.at_ = x.rel + ctxOffset e + ((fs.take j).map fun g => s.wireTime port g.bytes.length).sum ∧ f.bytes.length = len ∧
              f.limit = x.rel + ctxOffset e + (s.aux x.ctx).egressNs ∧ f.commit = now ∧ f.src = some ⟨q, i.cell, a⟩) ∧
        (x.traced = true → s.dget (0x3000 + ctxPart e) 13 ≠ 0 → (s.part (ctxPart e)).trUnits ≠ 0 →
          v.traceOut.length = (s.traceOut.filter fun o => !decide (o.ctx = some x.ctx)).length + ceilDiv n 3)) ∧
      ∀ (w : State) (c : Nat) (r : Word), ((w.queue q).inb = some c → w.commitArrival q now n = w.arrive c now q n) ∧
        rfld ((w.writeChk x.ctx (some r)).entry x.ctx) 4 32 32 = r.toNat))

/-! ## Queues and ingress (06, 15 R446) -/

/-- R220, R223, R225: the operations of a queue window by a master that reaches it, on an ACTIVE queue whose region is not
being scrubbed: PUSH appends or counts a drop, POP returns the item at the read position, MARK, REWIND, RELEASE and FLUSH
act in their mode, and STATUS returns the status word. That a POP finds nothing in the output queue of a timed stream, which 15 R448
gives to the egress scheduler, is the model's reading, log entry 159. -/
def Obligations.QueueWindowOperations : Prop :=
  ∀ (s : State) (m : Master) (q : QueueId) (n : BitVec 20) (item : Rec64),
    let x := s.queue q.toNat
    let body : QItem → QItem := fun i => { i with link := none }
    s.reachesQueue m q.toNat = true → s.regionHolds q.toNat = false → x.state = .active →
    (∀ i, itemOf item = some i → x.prod.toNat = pushClass m → x.items.length < x.clim → x.inb = none →
      ∃ t : State, exec (.push m q item) s = .next t ∧
        (t.queue q.toNat).items.map body = (x.items ++ [{ i with cell := s.takeCell.1 }]).map body ∧ (t.queue q.toNat).heldN = x.heldN ∧
        tabGet false t.qe.alloc s.takeCell.1 = true ∧
        (t.queue q.toNat).err = x.err ∧ (t.queue q.toNat).drops = x.drops ∧ t.mem = s.mem) ∧
    (itemOf item = none ∨ x.prod.toNat ≠ pushClass m ∨ x.clim ≤ x.items.length →
      ∃ t : State, exec (.push m q item) s = .next t ∧ t.queue q.toNat = { x with drops := min (x.drops + 1) 0xFFFFFFFF, err := true } ∧
        t.resp = .none ∧ t.mem = s.mem) ∧
    (∀ i, s.timedOut x = false → x.flush = true → x.items[x.heldN]? = some i → x.heldN = 0 →
      ∃ t : State, exec (.pop m q .ok) s = .next t ∧ (t.queue q.toNat).items = x.items.drop 1 ∧
        t.resp = .data (bytesOfNat 64 (popRecord i (i.poison ≠ 0)).toNat) ∧
        (t.region x.owner.toNat).pe = (if i.poison = 0 then (s.region x.owner.toNat).pe
          else min ((s.region x.owner.toNat).pe + i.poison.toNat) 0xFFFF)) ∧
    (∀ i, s.timedOut x = false → x.flush = false → x.items[x.heldN]? = some i →
      ∃ t : State, exec (.pop m q .ok) s = .next t ∧
        t.queue q.toNat = { x with heldN := x.heldN + 1, items := (t.queue q.toNat).items } ∧
        (t.queue q.toNat).items.map body = x.items.map body ∧
        t.resp = .data (bytesOfNat 64 (popRecord i (i.poison ≠ 0)).toNat) ∧
        (t.region x.owner.toNat).pe = (if i.poison = 0 then (s.region x.owner.toNat).pe
          else min ((s.region x.owner.toNat).pe + i.poison.toNat) 0xFFFF)) ∧
    (x.items[x.heldN]? = none → ∃ t : State, exec (.pop m q .ok) s = .next t ∧ t = { s with resp := .data (List.replicate 64 0) }) ∧
    (x.flush = false →
      (∃ t : State, exec (.mark m q) s = .next t ∧ t.queue q.toNat = { x with mark := some x.heldN }) ∧
      (∃ t : State, exec (.rewind m q) s = .next t ∧
        t.queue q.toNat = { x with heldN := x.mark.getD 0, items := (t.queue q.toNat).items } ∧
        (t.queue q.toNat).items.map body = (x.unread (x.mark.getD 0)).items.map body) ∧
      (∃ t : State, exec (.release m q ⟨n, false⟩) s = .next t ∧ (t.queue q.toNat).items = x.items.drop (min n.toNat x.heldN) ∧
        (t.queue q.toNat).heldN = x.heldN - min n.toNat x.heldN ∧
        ((t.queue q.toNat).err = (x.err || decide (x.heldN < n.toNat)))) ∧
      (∃ t : State, exec (.flush m ⟨q, false⟩) s = .next t ∧ t.queue q.toNat = { x with err := true })) ∧
    (x.items ≠ [] →
      (∃ t : State, exec (.release m q ⟨n, true⟩) s = .next t ∧ t = (s.answer .none).breakQueue q.toNat) ∧
      (∃ t : State, exec (.flush m ⟨q, true⟩) s = .next t ∧ t = (s.answer .none).breakQueue q.toNat)) ∧
    (s.timedOut x = true → ∃ t : State, exec (.pop m q .ok) s = .next t ∧ t = { s with resp := .data (List.replicate 64 0) }) ∧
    (x.flush = true →
      (∃ t : State, exec (.mark m q) s = .next t ∧ t.queue q.toNat = { x with err := true }) ∧
      (∃ t : State, exec (.rewind m q) s = .next t ∧ t.queue q.toNat = { x with err := true }) ∧
      (∃ t : State, exec (.release m q ⟨n, false⟩) s = .next t ∧ t.queue q.toNat = { x with err := true }) ∧
      (∃ t : State, exec (.flush m ⟨q, false⟩) s = .next t ∧ (t.queue q.toNat).items = [])) ∧
    (∃ t : State, exec (.status m q) s = .next t ∧ t = { s with resp := .data (bytesOfNat 8 x.statusWord) })

/-- R214, R215, R217: CREATE of a FREE queue within the region's quota makes it ACTIVE and empty with CLIM = BASE_CLIM;
DELETE of an empty, unbound ACTIVE queue makes it FREE; RESULT says why either is refused. While the region is scrubbed the
command is held, with BUSY. The sweep of a BROKEN queue whose DELETE was given frees its cells, and makes it FREE, whatever
else fails in it; where the allocation bitmap is uncorrectable, the node is then in FAULT (17 Table 17-9). RESULT 2 for a queue that
holds items and is bound too is the model's reading, log entry 59. -/
def Obligations.QueueCreateAndDelete : Prop :=
  ∀ (s : State) (q : QueueId) (fails bad : Bool) (failing : List (BitVec 19)),
    let x := s.queue q.toNat
    let r := x.owner.toNat
    let held (op : QOp) (t : State) : Prop := t.queue q.toNat = { x with busy := true } ∧
      (t.region r).heldOps = (s.region r).heldOps ++ [(q.toNat, op)] ∧ ∀ j, j ≠ q.toNat → t.queue j = s.queue j
    (s.regionHolds q.toNat = true → (∃ t : State, exec (.create q) s = .next t ∧ held .create t) ∧
      (∃ t : State, exec (.delete ⟨q, fails⟩) s = .next t ∧ held (.delete fails) t)) ∧
    (s.regionHolds q.toNat = false →
    (x.state = .free → s.regionClim r + s.regionPark r + x.baseClim ≤ (s.region r).quota →
      ∃ t : State, exec (.create q) s = .next t ∧ (t.queue q.toNat).state = .active ∧ (t.queue q.toNat).items = [] ∧
        (t.queue q.toNat).clim = x.baseClim ∧ (t.queue q.toNat).result = 0 ∧ ∀ j, j ≠ q.toNat → t.queue j = s.queue j) ∧
    (x.state = .free → (s.region r).quota < s.regionClim r + s.regionPark r + x.baseClim →
      ∃ t : State, exec (.create q) s = .next t ∧ t.queue q.toNat = { x with result := 4 }) ∧
    (x.state ≠ .free → ∃ t : State, exec (.create q) s = .next t ∧ t.queue q.toNat = { x with result := 1 }) ∧
    (x.state = .free → ∃ t : State, exec (.delete ⟨q, fails⟩) s = .next t ∧ t.queue q.toNat = { x with result := 5 }) ∧
    (x.state = .active → x.items ≠ [] → ∃ t : State, exec (.delete ⟨q, false⟩) s = .next t ∧ t.queue q.toNat = { x with result := 2 }) ∧
    (x.state = .active → x.items = [] → s.stagedFor q.toNat = false → x.inb ≠ none ∨ x.outb ≠ none →
      ∃ t : State, exec (.delete ⟨q, fails⟩) s = .next t ∧ t.queue q.toNat = { x with result := 3 }) ∧
    (x.state = .active → x.items = [] → s.stagedFor q.toNat = false → x.inb = none → x.outb = none →
      ∃ t : State, exec (.delete ⟨q, fails⟩) s = .next t ∧ (t.queue q.toNat).state = .free ∧ (t.queue q.toNat).result = 0 ∧
        ∀ j, j ≠ q.toNat → t.queue j = s.queue j) ∧
    (x.state = .broken → ∃ t : State, exec (.delete ⟨q, fails⟩) s = .next t ∧ t.queue q.toNat = { x with busy := true, result := 0 })) ∧
    (x.state = .broken → x.busy = true →
      (∃ t : State, exec (.brokenSweepEnd ⟨q, failing, bad⟩) s = .next t ∧ (t.queue q.toNat).state = .free ∧
        (t.queue q.toNat).items = [] ∧ (t.queue q.toNat).busy = false ∧ (bad = true → t.node = .fault)) ∧
      (x.parked = none → ∃ t : State, exec (.brokenSweepEnd ⟨q, [], bad⟩) s = .next t ∧
        t.qe.free = s.qe.free + (x.items.filter fun i => !i.lost).length ∧
        ∀ j, j ≠ q.toNat → t.queue j = s.queue j))

/-- R215, R216, R228: the encoding of a region, its scrub, the BOOT bit of the pool, and the levels of FCI. A scrub's end
takes over ENCREQ, whatever it finds in the region's cells. -/
def Obligations.RegionsPoolAndFlowControl : Prop :=
  ∀ (s : State) (r : PartId) (v : Bool) (n : SegId) (found : List (BitVec 19 × CellCheck)),
    let x := s.region r.toNat
    (∃ t : State, exec (.encreq r v) s = .next t ∧ (t.region r.toNat).encreq = v ∧
      ((t.region r.toNat).enc = if s.regionUsed r.toNat = 0 ∧ x.scrubbing = false then v else x.enc) ∧
      ∀ j, j ≠ r.toNat → t.region j = s.region j) ∧
    (∃ t : State, exec (.regionScrub r) s = .next t ∧ t.region r.toNat = { x with scrubbing := true } ∧ t.qe.queues = s.qe.queues) ∧
    (x.scrubbing = true → x.heldOps = [] →
      (∃ t : State, exec (.regionScrubEnd ⟨r, []⟩) s = .next t ∧ t.region r.toNat = { x with scrubbing := false, enc := x.encreq } ∧
        t.qe.queues = s.qe.queues) ∧
      (∃ t : State, exec (.regionScrubEnd ⟨r, found⟩) s = .next t ∧ (t.region r.toNat).scrubbing = false ∧
        (t.region r.toNat).enc = x.encreq ∧ (t.region r.toNat).encreq = x.encreq)) ∧
    (x.scrubbing = false → ∃ t : State, exec (.regionScrubEnd ⟨r, found⟩) s = .next t ∧ t = s) ∧
    (v = true ∨ s.anyItem = false → ∃ t : State, exec (.boot v) s = .next t ∧ t = { s with qe := { s.qe with boot := v } }) ∧
    (v = false → s.anyItem = true → ∃ t : State, exec (.boot v) s = .next t ∧ t = s) ∧
    (∃ t : State, exec (.fciChange n v) s = .next t ∧ t.qe.fci.getLsbD n.toNat = v ∧
      (∀ i, i ≠ n.toNat → t.qe.fci.getLsbD i = s.qe.fci.getLsbD i) ∧ { t with qe := { t.qe with fci := s.qe.fci } } = s)

/-- R230, R231, 15 R445, R446: a frame with a good FCS that matches a rule whose queue has a credit is written to the rule's
ring slot, and its descriptor is pushed; a frame with a bad FCS, a length above 9,212 bytes, or no rule at all is counted in
RX_DROPS, and so is one shorter than 60 bytes, by the model's choice from outside the manual, log entry 62. -/
def Obligations.FramesAreDelivered : Prop :=
  ∀ (s : State) (port : PortId) (f : RxFrame), (s.portRate port.toNat).isSome = true → s.node ≠ .fault →
    let h := classifyFrame f.bytes
    (f.fcsOk = false ∨ f.bytes.length < 60 ∨ 9212 < f.bytes.length →
      ∃ t : State, exec (.frameReceive port f) s = .next t ∧ t = s.portDrop port.toNat rxDropsSub) ∧
    (f.fcsOk = true → 60 ≤ f.bytes.length → f.bytes.length ≤ 9212 → s.testing 4 (port.toNat / 4) = false →
      isPause f.bytes = false → h.etype ≠ 0x88F7 →
      (∀ (i : Nat) (r : Rule), s.qe.rules.find? (fun e => match e.2 with | some r => r.matches port.toNat h | none => false) = some (i, some r) →
        let x := s.queue r.queue
        let n := min f.bytes.length (2 ^ r.slotLog2)
        let a := r.ringBase + 2 ^ r.slotLog2 * (r.n % max r.slots 1)
        tabGet none s.qe.rules i = some r → x.hasCredit pcClassifier = true → s.ownsRange x.owner.toNat a n = true → s.regionHolds r.queue = false → x.inb = none →
        ∃ t : State, exec (.frameReceive port f) s = .next t ∧ t.mem = memWrite s.mem a (f.bytes.take n) ∧
          (t.queue r.queue).items.length = x.items.length + 1 ∧
          (∃ y ∈ (t.queue r.queue).items, y.payload = (descriptorItem (s.ingressTs port.toNat f.ts).toNat a n port.toNat h (decide (2 ^ r.slotLog2 < f.bytes.length)) false).payload ∧ y.len = 32) ∧
          tabGet none t.qe.rules i = some { r with n := r.n + 1 }) ∧
      (s.qe.rules = [] → tabGet none s.qe.defRule port.toNat = none →
        ∃ t : State, exec (.frameReceive port f) s = .next t ∧ t = s.portDrop port.toNat rxDropsSub))

/-! ## Hanks, HBM stacks, granules and the control matrix (05, 07) -/

/-- R180, R181, R182, R185: a handover waits until its boundary; there the owner, the fabric hoop and the enable change at
once, and a due scrub starts, or waits for a hank that is not on; the scrub zeroes the hank. SCRUB and SCRUBNOW keep the
owner. 17 R508, R512: a handover of a hank under test is refused with BUSYERR, the model's choice where the manual names BUSY, log
entry 155. The entries OWNER, FABRIC_HOOP and SCRUB_ON_HANDOVER begin the same change. -/
def Obligations.HankHandoverAndScrub : Prop :=
  ∀ (s : State) (h : HankId) (v : Word) (path : Path) (b : Byte),
    let n := h.toNat
    let x := s.hank n
    let others (t : State) : Prop := (∀ m, m ≠ n → t.hank m = s.hank m) ∧ t.mem = s.mem
    (∀ o, o = v.extractLsb' 0 5 → x.pendBit = false → s.testing 1 n = true → (o.toNat < 18 ∨ o = 31) → o ≠ x.owner →
      ∃ t, exec (.handover h v) s = .next t ∧ others t ∧ (t.hank n).busyerr = true ∧ (t.hank n).pend = none ∧ (t.hank n).owner = x.owner) ∧
    (∀ o f, o = v.extractLsb' 0 5 → f = v.extractLsb' 8 4 → x.pendBit = false → s.testing 1 n = false → (o.toNat < 18 ∨ o = 31) → f.toNat ≠ hoopOfHank n →
      (v.getLsbD 12 = false ∨ s.fabricOk n f.toNat = true) → (o ≠ x.owner ∨ f ≠ x.fabhoop ∨ v.getLsbD 12 ≠ x.faben) →
      ∃ t, exec (.handover h v) s = .next t ∧ others t ∧
        (t.hank n).pend = some { owner := o, fabhoop := f, faben := v.getLsbD 12, now := v.getLsbD 14 } ∧
        (t.hank n).owner = x.owner ∧ (t.hank n).fabhoop = x.fabhoop ∧ (t.hank n).faben = x.faben ∧ (t.hank n).scrub = v.getLsbD 13) ∧
    (x.pendBit = true → (v.extractLsb' 0 5).toNat < 18 → v.extractLsb' 0 5 ≠ x.owner →
      ∃ t, exec (.handover h v) s = .next t ∧ t = s.setHank n { x with busyerr := true }) ∧
    (x.pendBit = false ∨ v.getLsbD 13 ≠ x.scrub →
      ∃ t, exec (.scrubFlagWrite h v) s = .next t ∧ t = s.setHank n { x with scrub := v.getLsbD 13 }) ∧
    (x.pendBit = false → s.testing 1 n = false → ∃ t, exec (.scrubNow h) s = .next t ∧ t = s.setHank n { x with
      pend := some { owner := x.owner, fabhoop := x.fabhoop, faben := x.faben, now := true }, scrubNow := true }) ∧
    (∀ p, x.pend = some p →
      let due := x.scrub || p.now || s.sealedOwner x.owner.toNat || s.sealedOwner p.owner.toNat
      ∃ t, exec (.handoverBoundary h) s = .next t ∧ others t ∧ (t.hank n).owner = p.owner ∧ (t.hank n).fabhoop = p.fabhoop ∧
        (t.hank n).faben = p.faben ∧ (t.hank n).pend = none ∧
        ((t.hank n).scrubbing = (x.scrubbing || (due && decide (x.power = .on)))) ∧
        ((t.hank n).heldScrub = (x.heldScrub || (due && decide (x.power ≠ .on ∧ x.power ≠ .off)))) ∧
        tabGet false t.l2.pend (80 + hoopOfHank n) = true) ∧
    (x.heldScrub = true → x.power = .on →
      ∃ t, exec (.heldScrubStart h) s = .next t ∧ t = s.setHank n { x with heldScrub := false, scrubbing := true }) ∧
    (x.scrubbing = true → ∃ t, exec (.scrubEnd h) s = .next t ∧ memBecomes (hankBase n) 0x400000 (fun _ => 0) s t ∧
      (t.hank n).scrubbing = false ∧ (t.hank n).owner = x.owner ∧ (t.hank n).pend = x.pend ∧ (∀ m, m ≠ n → t.hank m = s.hank m) ∧
      (t.hank n).ueRow = 0 ∧ (t.hank n).ueCount = x.ueCount ∧ tabGet false t.l2.pend (80 + hoopOfHank n) = true) ∧
    (s.serves path = true → widePath path = true → x.pendBit = false → x.owner ≠ b.setWidth 5 → s.hankInUse n = false →
      s.testing 1 n = false → b.toNat < 18 ∨ b = 31 →
      ∃ t, exec (.owner path h b) s = .next t ∧ answered path 0 t ∧ (t.hank n).owner = x.owner ∧ t.mem = s.mem ∧
        ((t.hank n).pend.map fun p => p.owner) = some (b.setWidth 5)) ∧
    (s.serves path = true → widePath path = true → x.pendBit = false → s.hankInUse n = false → s.testing 1 n = false →
      (b.toNat < 16 ∧ b.toNat ≠ hoopOfHank n ∧ s.fabricOk n b.toNat = true) → x.faben = false →
      ∃ t, exec (.fabricHoop path h b) s = .next t ∧ answered path 0 t ∧ (t.hank n).faben = false ∧ t.mem = s.mem ∧
        ((t.hank n).pend.map fun p => (p.faben, p.fabhoop)) = some (true, b.setWidth 4)) ∧
    (s.serves path = true → widePath path = true → x.pendBit = false → s.hankInUse n = false → b.toNat ≤ 1 →
      ∃ t, exec (.scrubOnHandover path h b) s = .next t ∧ answered path 0 t ∧
        t.hank n = { x with scrub := decide (b = 1) } ∧ t.mem = s.mem)

/-- R183, R184, R188, R192, R196 to R199, 07 R256: power requests of a hank, which one that a stream holds on refuses (R71),
and the ends of its transitions, of which those out of off begin the scrub that ends them; the temperature, the pattern, the
reservation records and the retirement of an HBM stack, which change at its frame boundary; and the owners of the granules. That a
granule keeps its owner while it is zeroed is the model's reading, log entry 73, and that a HANK_PWR write which a stream's hold
forbids is ignored is too, log entry 129. -/
def Obligations.HankPowerStacksAndGranules : Prop :=
  ∀ (s : State) (h : HankId) (r : BitVec 2) (k : StackId) (b : Byte) (g : GranId) (v : Word) (path : Path) (i : Byte) (hi : Bool) (w : DWord),
    let n := h.toNat
    let x := s.hank n
    let y := s.stack k.toNat
    let may : Prop := r ≠ 3 ∧ (r = 0 ∨ s.hankHeldOn n = false)
    (may → powerCode x.power ≠ 3 → powerCode x.power ≠ r.toNat → x.pendBit = false →
      ∃ t, exec (.hankPwr h r) s = .next t ∧ t = s.setHank n { x with
        req := r, power := .moving (BitVec.ofNat 2 (powerCode x.power)) r, reqNext := none }) ∧
    (may → powerCode x.power = 3 ∨ (x.pendBit = true ∧ x.heldScrub = false) →
      ∃ t, exec (.hankPwr h r) s = .next t ∧ t = s.setHank n { x with req := r, reqNext := some r }) ∧
    (r = 3 ∨ (r ≠ 0 ∧ s.hankHeldOn n = true) → ∃ t, exec (.hankPwr h r) s = .next t ∧ t = s) ∧
    (∀ a z, x.power = .moving a z → a ≠ 2 ∨ z = 2 → x.reqNext = none →
      ∃ t, exec (.hankPowerTransitionEnd h) s = .next t ∧ (t.hank n).power = powerOf z ∧ (t.hank n).owner = x.owner ∧
        (t.hank n).heldScrub = (x.heldScrub && decide (z ≠ 2)) ∧
        (if z = 2 then memBecomes (hankBase n) 0x400000 (fun _ => 0) s t else t.mem = s.mem)) ∧
    (∀ z, x.power = .moving 2 z → z ≠ 2 →
      (∃ t, exec (.hankPowerTransitionEnd h) s = .next t ∧ t = s.setHank n { x with scrubbing := true }) ∧
      (x.scrubbing = true → x.reqNext = none → 16 ≤ x.owner.toNat →
        ∃ t, exec (.scrubEnd h) s = .next t ∧ memBecomes (hankBase n) 0x400000 (fun _ => 0) s t ∧ (t.hank n).scrubbing = false ∧
          (t.hank n).power = if z = 0 then .on else .moving 0 z)) ∧
    (∃ t, exec (.hbmTempRead k b) s = .next t ∧ t = s.setStack k.toNat { y with
      temp := b
      switch := if 85 ≤ b.toInt then (if y.hot then none else some true)
        else if b.toInt ≤ 80 then (if y.hot then some false else none) else y.switch }) ∧
    (∃ t, exec (.swap k) s = .next t ∧ t = s.setStack k.toNat { y with swap := true }) ∧
    (∃ t, exec (.hbmFrameBoundary k) s = .next t ∧ (t.stack k.toNat).hot = y.switch.getD y.hot ∧ (t.stack k.toNat).switch = none ∧
      (t.stack k.toNat).swap = false ∧ t.mem = s.mem ∧
      (y.switch = some !y.hot → tabGet false t.l2.pend (8 + k.toNat) = true) ∧
      (∀ q, y.retire = some q → s.pcBusy k.toNat (q.toNat ^^^ y.retired.toNat) = false → (t.stack k.toNat).retired = q) ∧
      (tabWf (fun _ => (0 : BitVec 16)) s.rsv = true → ∀ pc j, j < 128 →
        t.rsvWord pc j = if pc / 32 = k.toNat ∧ y.swap = true
          then (s.rsvWord pc j).extractLsb' 0 8 ++ (s.rsvWord pc j).extractLsb' 0 8 else s.rsvWord pc j)) ∧
    (s.serves path = true → widePath path = true → i.toNat < 255 → s.dget (0x3200 + i.toNat) 7 ≠ 1 →
      s.partOf (s.dget (0x3200 + i.toNat) 2) = some (s.dget (0x3200 + i.toNat) 1) →
      (∀ j ∈ octets (s.recMask i.toNat), reservable j = true) → (∀ pc ∈ s.recPcs i.toNat, s.pcOut pc = false) → s.recOverlap i.toNat = false →
      ∃ t, exec (.enable path i 1) s = .next t ∧ answered path 0 t ∧ t.dget (0x3200 + i.toNat) 7 = 1 ∧
        ∀ pc ∈ s.recPcs i.toNat, (t.stack (pc / 32)).swap = true ∧ ∀ j ∈ octets (s.recMask i.toNat),
          (t.rsvWord pc j).extractLsb' 0 8 = BitVec.ofNat 8 (128 + s.dget (0x3200 + i.toNat) 2)) ∧
    (s.serves path = true → widePath path = true →
      (∀ j, j < 64 → bitOf (s.dget 0x32FF (if hi then 2 else 1) ^^^ w.toNat) j = true →
        ∀ m ∈ s.enabledRecs, (if hi then 64 else 0) + j ∉ s.recPcs m) →
      ∃ t, exec (.pcRetired path hi w) s = .next t ∧ answered path 0 t ∧ t.dget 0x32FF (if hi then 2 else 1) = w.toNat ∧
        ∀ c, c < 2 → let z := s.stack ((if hi then 2 else 0) + c)
          (t.stack ((if hi then 2 else 0) + c)).retired = z.retired ∧ (t.stack ((if hi then 2 else 0) + c)).retire =
            if w.extractLsb' (32 * c) 32 = z.retired then none else some (w.extractLsb' (32 * c) 32)) ∧
    (∀ o, o = v.extractLsb' 0 5 → g.val < 1535 → s.granZeroing g.val = false → (o.toNat < 16 ∨ o = 31) → o.toNat ≠ s.granOwner g.val →
      ∃ t, exec (.granOwn g v) s = .next t ∧ t.mem = s.mem ∧
        (∀ j, j ≠ g.val → t.granOwner j = s.granOwner j ∧ t.granZeroing j = s.granZeroing j) ∧
        (if s.sealedOwner (s.granOwner g.val) || s.sealedOwner o.toNat
          then t.granZeroing g.val = true ∧ t.granOwner g.val = s.granOwner g.val ∧ tabGet none t.granNext g.val = some o
          else t.granZeroing g.val = false ∧ t.granOwner g.val = o.toNat)) ∧
    (g.val < 1535 → s.granZeroing g.val = true →
      ∃ t, exec (.granuleZeroingEnd g) s = .next t ∧ memBecomes (g.val * 2 ^ 26) (2 ^ 26) (fun _ => 0) s t ∧
        t.granZeroing g.val = false ∧
        t.granOwner g.val = (match tabGet none s.granNext g.val with | some o => o.toNat | none => s.granOwner g.val))

/-- R173, R188, R203, R207, 00 R15 to R22: accesses on the control matrix by the masters of Table 5-14, locks, and the field
types of the registers: RW, RC, W1C, RO, and WO; a W1S bit (TB_CTL.STEP) that stays 1 until its action, a reserved value (of
SLEWRATE) that keeps the field, and RWL fields, which a locked patch block keeps. That a command is one beat of a locked sequence
with
the beats left as its operand is the model's reading, log entry 34; so is which masters a block admits where its chapter names none,
entry 24; that a read of uncorrectable data ends with an error response is its choice, entry 40, and that a function's refusal is
logged in its AER's bit 20 comes from outside the manual, entry 160. -/
def Obligations.ControlMatrixServesMasters : Prop :=
  ∀ (s : State) (m : Master) (c : BitVec 2) (p : PartId) (a : DWord) (n : BitVec 9) (d : BitVec 2048) (beats : BitVec 5) (e : CtxId)
    (t₀ : LockTarget) (v : DWord) (h : HoopId) (ch : SegId) (chk : AccessCheck) (cell : CellCheck),
    let refused (m : Master) : State := { s with resp := .error, aer := (match m with
      | .pcie f => if s.rst.perstLow then s.aer else tabSet 0 s.aer (fnKey f) (tabGet 0 s.aer (fnKey f) ||| 2 ^ 20)
      | _ => s.aer) }
    (∀ l, (s.lockState t₀).held = some l → ∃ t, exec (.lockBreak t₀) s = .next t ∧
      t = if l.start + 128 ≤ s.clock.u then
        s.setLock t₀ { held := none, ended := some (l.start + 128)
                       broken := (l.master, l.left) :: (s.lockState t₀).broken.filter fun b => b.1 ≠ l.master } else s) ∧
    (s.inReset = false →
      (1 ≤ n.toNat → n.toNat ≤ 64 → a.toNat + n.toNat ≤ 0x001800000000 → s.pcRetired a.toNat = false →
        s.pcRetired (a.toNat + n.toNat - 1) = false →
        (s.matrixNow a.toNat n.toNat = true →
          (∃ t, exec (.matrixAccess (.distaff c) a n ⟨.read, ⟨.ok, cell⟩⟩) s = .next t ∧ t = { s with resp := .data (s.bytes a.toNat n.toNat) }) ∧
          (∃ t, exec (.matrixAccess (.distaff c) a n ⟨.read, ⟨.uncorrectable, cell⟩⟩) s = .next t ∧ t.resp = .error ∧ t.mem = s.mem) ∧
          (∃ t, exec (.matrixAccess (.distaff c) a n ⟨.write d, chk⟩) s = .next t ∧ t.resp = .none ∧
            memBecomes a.toNat n.toNat (fun i => d.extractLsb' (8 * i) 8) s t)) ∧
        (s.matrixNow a.toNat n.toNat = false →
          ∃ t, exec (.matrixAccess (.distaff c) a n ⟨.read, chk⟩) s = .next t ∧ t = s)) ∧
      (1 ≤ n.toNat → n.toNat ≤ 64 → a.toNat + n.toNat ≤ 0x001800000000 →
        (s.hbmServes a.toNat p.toNat = false ∨ s.hbmServes (a.toNat + n.toNat - 1) p.toNat = false) →
        ∃ t, exec (.matrixAccess (.pcie (.vf p)) a n ⟨.write d, chk⟩) s = .next t ∧ t = refused (.pcie (.vf p))) ∧
      (0x001800000000 ≤ a.toNat → a.toNat + n.toNat ≤ 0x010000000000 →
        ∃ t, exec (.matrixAccess m a n ⟨.read, chk⟩) s = .next t ∧ t = refused m) ∧
      (a.toNat = ctxStoreBase + 64 * e.toNat →
        (∀ l, s.lockHolder .contextStore = some l → l.master ≠ .distaff c →
          ∃ t, exec (.matrixAccess (.distaff c) a 64 ⟨.read, chk⟩) s = .next t ∧ t = s) ∧
        (∀ j, (s.lockState .contextStore).held = none → (s.lockState .contextStore).broken.head? = some (.distaff c, j) → 0 < j →
          ∃ t, exec (.lockedSequence (.distaff c) a beats ⟨.read, chk.data⟩) s = .next t ∧ t.resp = .lockBreak ∧ t.store = s.store ∧ t.mem = s.mem) ∧
        (s.lockFree .contextStore = true →
          (∃ t, exec (.matrixAccess (.distaff c) a 64 ⟨.read, ⟨.ok, cell⟩⟩) s = .next t ∧
            t = { s with resp := .data (bytesOfNat 64 (s.entry e.toNat).toNat) }) ∧
          ((s.lockState .contextStore).held = none → (s.lockState .contextStore).broken = [] →
            ∃ t, exec (.lockedSequence (.distaff c) a beats ⟨.read, .ok⟩) s = .next t ∧
            t.resp = .data (bytesOfNat 64 (s.entry e.toNat).toNat) ∧ t.store = s.store ∧ t.mem = s.mem ∧
            t.lockState .contextStore = if beats.toNat ≤ 1 then { held := none, ended := some s.clock.u }
              else { held := some ⟨.distaff c, 1, beats.toNat - 1, s.clock.u⟩, ended := (s.lockState .contextStore).ended }))) ∧
      (a = 0x01F000900008 → ∃ t, exec (.registerWrite (.distaff c) a 4 v) s = .next t ∧
        t = { s with time := { s.time with setLo := v.extractLsb' 0 32 }, resp := .none }) ∧
      (a = 0x01F000E00010 → ∃ t, exec (.registerWrite (.distaff c) a 4 v) s = .next t ∧
        t = { s with rst := { s.rst with event := s.rst.event &&& ~~~((v.extractLsb' 8 7).setWidth 8) }, resp := .none }) ∧
      (a = 0x01F000E00000 → ∃ t, exec (.registerWrite (.distaff c) a 4 v) s = .next t ∧ t = { s with resp := .none }) ∧
      (a = 0x01F000300000 → ∃ t, exec (.registerWrite (.distaff c) a 8 v) s = .next t ∧ t = { s with resp := .none }) ∧
      (a = 0x01F000E00010 → s.node ≠ .fault → s.rst.perstLow = false →
        ∃ t, exec (.registerWrite (.pcie (.vf p)) a 4 v) s = .next t ∧ t = refused (.pcie (.vf p))) ∧
      (a = 0x01F000900010 →
        (∃ t, exec (.registerWrite (.distaff c) a 4 v) s = .next t ∧ t.time.stepping = (s.time.stepping || v.getLsbD 0) ∧
          t.time.slewRate = (if v.extractLsb' 8 8 = 0 ∨ 100 < (v.extractLsb' 8 8).toNat then s.time.slewRate else v.extractLsb' 8 8) ∧
          t.time.rport = v.extractLsb' 16 5 ∧ t.time.fref = v.getLsbD 21 ∧ { t with time := s.time } = { s with resp := .none }) ∧
        ∃ t x, exec (.rcFieldRead (.distaff c) a) s = .next t ∧ t = { s with resp := .data (bytesOfNat 4 x) } ∧
          bitOf x 0 = s.time.stepping ∧ bitOf x 2 = s.time.locked ∧ fld x 8 8 = s.time.slewRate.toNat) ∧
      (∀ w off, w < 144 → (s.mc w).lock = true → s.atM c = true → (off = 0x2E000 ∨ 0x2E100 ≤ off ∧ off < 0x2E180 ∧ off % 8 = 0) →
        a.toNat = windowBase + w * 0x40000 + off → ∃ t, exec (.registerWrite (.distaff c) a 8 v) s = .next t ∧ t = { s with resp := .none }) ∧
      (a.toNat = 0x01F000700030 + 0x10000 * h.toNat + 0x100 * ch.toNat →
        ∃ t, exec (.rcFieldRead (.distaff c) a) s = .next t ∧
          t = (s.setShuttle (chanOf h ch) { s.shuttle (chanOf h ch) with irqs := 0, lists := 0 }).answer
            (.data (bytesOfNat 8 ((s.shuttle (chanOf h ch)).irqs + (s.shuttle (chanOf h ch)).lists * 2 ^ 32)))) ∧
      (a.toNat = 0x01F000800018 + 0x10000 * h.toNat + 0x100 * ch.toNat →
        ∃ t, exec (.rcFieldRead (.distaff c) a) s = .next t ∧
          t.checkCtl (chanOf h ch) = { s.checkCtl (chanOf h ch) with repeat_ := 0, gap := 0, stale := 0 } ∧
          t.resp = .data (bytesOfNat 8 ((s.checkCtl (chanOf h ch)).repeat_ + (s.checkCtl (chanOf h ch)).gap * 2 ^ 16 +
            (s.checkCtl (chanOf h ch)).stale * 2 ^ 32))) ∧
      (a.toNat < 0x100 → a.toNat % 0x40 = 0x20 → s.rst.perstLow = false → s.node ≠ .fault →
        ∃ t, exec (.rcFieldRead (.pcie (.vf p)) a) s = .next t ∧
          t.resp = .data (bytesOfNat 8 (if a.toNat = 0x60 ∨ a.toNat = 0xE0 then (s.ring p.toNat (a.toNat / 0x40)).lost else 0)) ∧
          t.ring p.toNat (a.toNat / 0x40) = { s.ring p.toNat (a.toNat / 0x40) with lost := 0 }))

/-! ## Partitions and modes (07) -/

/-- R243, R245 to R247, R249, R250, R252, R260: a mode request that passes its tests waits with PHASE 1; a refused one
leaves the mode and records its code; the last action of a transition makes the target the mode; entries of a DORMANT
partition take effect at once; pattern cards wait for their first card frame; the START of a bound skein makes it due; a
replay of no skein ends at once. -/
def Obligations.PartitionsModesAndCards : Prop :=
  ∀ (s : State) (path : Path) (p : PartId) (b : Byte) (k : Spindle) (w : Word) (v : Nat) (l : List Byte),
    let x := s.part p.toNat
    let i := 0x3000 + p.toNat
    let y := s.card k.toNat
    let own := s.serves path = true ∧ (widePath path = true ∨ path = .vf p)
    let quiet := ∀ e ∈ s.dict, e.1 % 256 = 3 → e.2 = 1 → ¬(0x4000 ≤ e.1 / 256 ∧ e.1 / 256 ≤ 0x47FF)
    (own → s.node = .operational ∨ s.node = .stopped → x.phase.toNat < 2 → x.forced = false → x.resetting = false → b.toNat < 8 →
      b.toNat ≠ x.mode.toNat →
      (s.modeTest p.toNat x.mode.toNat b.toNat = 0 → ∃ t, exec (.modeReq path p b) s = .next t ∧ answered path 0 t ∧
        t.part p.toNat = { x with target := b.setWidth 3, pend := true, phase := 1, errcode := 0, since := s.now } ∧ t.dget i 1 = b.toNat) ∧
      (∀ c, s.modeTest p.toNat x.mode.toNat b.toNat = c → c ≠ 0 → ∃ t, exec (.modeReq path p b) s = .next t ∧ answered path 8 t ∧
        t.part p.toNat = { x with errcode := BitVec.ofNat 4 c, err := true } ∧ t.dget i 1 = s.dget i 1)) ∧
    (quiet → s.node = .operational → x.pend = true → x.forced = false → x.resetting = false → x.resetWork = false →
      (x.phase = 1 → s.streamsAllow p.toNat = true → s.atFrameBoundary = true → x.since ≠ s.now → stagesOf x.mode.toNat x.target.toNat = [] →
        ∃ t, exec (.transitionStart p) s = .next t ∧ (t.part p.toNat).mode = x.target ∧ (t.part p.toNat).pend = false ∧
          (t.part p.toNat).phase = 0 ∧ t.mem = s.mem ∧ t.hanks = s.hanks) ∧
      (2 ≤ x.phase.toNat → s.stageDone p.toNat = true →
        ((stagesOf x.mode.toNat x.target.toNat).dropWhile fun q => q ≠ x.phase.toNat).drop 1 = [] →
        ∃ t, exec (.modeChanged p) s = .next t ∧ (t.part p.toNat).mode = x.target ∧ (t.part p.toNat).pend = false ∧
          (t.part p.toNat).phase = 0 ∧ tabGet false t.l2.pend (176 + p.toNat) = true)) ∧
    (x.pend = true → x.phase = 1 → s.streamsAllow p.toNat = false ∨ s.atFrameBoundary = false → x.forced = false → x.resetWork = false →
      ∃ t, exec (.transitionStart p) s = .next t ∧ t = s) ∧
    (s.serves path = true → widePath path = true → x.pend = false → x.mode = 0 →
      (v < 2 ^ 32 → s.partClash p.toNat 10 v = false → ∃ t, exec (.partitionTableWrite path p 10 (bytesOfNat 4 v)) s = .next t ∧
        answered path 0 t ∧ t.part p.toNat = { x with egr := BitVec.ofNat 32 v } ∧ entrySet i 10 v s t) ∧
      (s.partRange p.toNat 6 v = true → s.partClash p.toNat 6 v = false → v ≤ 262144 →
        ∃ t, exec (.partitionTableWrite path p 6 (bytesOfNat 4 v)) s = .next t ∧
        answered path 0 t ∧ t.part p.toNat = { x with ctxq := v } ∧ entrySet i 6 v s t) ∧
      (v ≤ 458752 → s.partClash p.toNat 7 v = false → ∃ t, exec (.partitionTableWrite path p 7 (bytesOfNat 4 v)) s = .next t ∧
        answered path 0 t ∧ t.region p.toNat = { s.region p.toNat with quota := v } ∧ t.parts = s.parts ∧ entrySet i 7 v s t) ∧
      (v < 2 ^ 64 → (∀ j, j < 64 → s.oos j = false) → s.partClash p.toNat 4 v = false →
        ∃ t, exec (.partitionTableWrite path p 4 (bytesOfNat 8 v)) s = .next t ∧
        answered path 0 t ∧ t.part p.toNat = { x with spin0 := BitVec.ofNat 64 v } ∧ entrySet i 4 v s t)) ∧
    (s.serves path = true → widePath path = true → x.pend = false → x.mode ≠ 0 → v < 2 ^ 32 →
      ∃ t, exec (.partitionTableWrite path p 10 (bytesOfNat 4 v)) s = .next t ∧ answered path 8 t ∧ t.parts = s.parts ∧ t.dict = s.dict) ∧
    (s.serves path = true → (widePath path = true ∨ ∃ q : PartId, path = .vf q ∧ s.partOf k.toNat = some q.toNat) → l.length ≤ 4112 →
      (∀ c, parseCard l = .inr (some c) → s.cardTest k.toNat (some c) = 0 → ∃ t, exec (.patternCard path k l) s = .next t ∧
        answered path 0 t ∧ (t.card k.toNat).waiting = some c ∧ (t.card k.toNat).at_ = (s.now / c.fc + 1) * c.fc ∧
        (t.card k.toNat).card = y.card ∧ ∀ j, j ≠ k.toNat → t.card j = s.card j) ∧
      (∀ c n, parseCard l = .inr c → s.cardTest k.toNat c = n → n ≠ 0 → ∃ t, exec (.patternCard path k l) s = .next t ∧
        answered path 8 t ∧ t.card k.toNat = { y with status := n })) ∧
    (∀ c, y.waiting = some c → y.at_ ≤ s.now → ∃ t, exec (.cardFrameStart k) s = .next t ∧
      t = s.setCard k.toNat { y with card := some c, waiting := none, status := 1 }) ∧
    ((s.disp k.toNat).ready.any (s.startDue k.toNat) = true → ∃ t, exec (.cardEntryStart k) s = .next t ∧
      { t with disps := s.disps } = s ∧ (t.disp k.toNat).ready =
        (s.disp k.toNat).ready.map fun z => if s.startDue k.toNat z = true then { z with due := true } else z) ∧
    (s.serves path = true → widePath path = true → x.replay ≠ 1 →
      (ctxState (s.entry w.toNat) ≠ stBackground ∨ ctxPart (s.entry w.toNat) ≠ p.toNat ∨ 262144 - s.prickCount ≤ w.toNat →
        ∃ t, exec (.replayContext path p w) s = .next t ∧ answered path 0 t ∧ t.part p.toNat = { x with replay := 4 }) ∧
      (ctxState (s.entry w.toNat) = stBackground → ctxPart (s.entry w.toNat) = p.toNat → w.toNat < 262144 - s.prickCount →
        s.dget i 0x12 = 0 → ∃ t, exec (.replayContext path p w) s = .next t ∧ answered path 0 t ∧
          t.part p.toNat = { x with replay := 2, replayCtx := w.toNat, replayAt := s.dget i 0x11, replayLeft := 0, replayRec := none }))

/-! ## Egress, time and interrupts (15, 14, 12) -/

/-- R447 to R451: of the timed frames of a port the one whose launch time comes first is next, whichever stream's it is; it starts
at its launch time, with the bytes that scratch holds when it has been read, or is missed: dropped when it would end too late,
kept for an untimed start under LATE_FRAME when it cannot start; an untimed frame starts when the wire is free for it, a governor
frame before any other; R452: a governor's Sync takes its originTimestamp in one-step operation and leaves its egress timestamp
for the
Follow_Up in two-step operation, with the port's level 2 event. R445: the egress timestamp of a frame is its start at the MDI.
That a late command starts the frame at
the launch time plus 7 ns, and that a frame which would both end too late and start too late counts as ending too late, is the
model's
reading, log entry 80; the layout of a Sync comes from outside the manual, entry 82. -/
def Obligations.FramesStartOnTheWire : Prop :=
  ∀ (s : State) (port : PortId) (chk : FrameCheck) (b : Bool), s.portSends port.toNat = true →
    let n := port.toNat
    let g := s.port n
    let sent (n : Nat) (f : TxFrame) (at_ : Nat) (h : Egress) (t : State) : Prop :=
      t.sent = .frame n at_ f.bytes :: s.sent ∧ t.port n = { h with
        busy := at_ + s.wireTime n f.bytes.length, raw := BitVec.ofNat 64 at_ - s.txLag n } ∧ t.egressTs n = BitVec.ofNat 64 at_ ∧
        (∀ j, j ≠ n → t.port j = s.port j) ∧ { t with sent := s.sent, egress := s.egress } = s
    let none_ (t : State) : Prop := ∀ q a l, Sent.frame q a l ∈ t.sent → Sent.frame q a l ∈ s.sent
    (∀ f, g.first = some f → f ∈ g.timed ∧ ∀ y ∈ g.timed, f.at_ ≤ y.at_) ∧
    (∀ f, g.first = some f → f.at_ ≤ s.now →
      (s.endsLate n f = false → f.commit + 1500 ≤ f.at_ →
        (f.src = none → ∃ t, exec (.timedLaunch port ⟨b, chk.data⟩) s = .next t ∧
          sent n f (min s.now (f.at_ + 7)) { g with timed := g.timed.erase f } t) ∧
        (∀ r, f.src = some r → ∃ t, exec (.timedLaunch port ⟨false, .ok⟩) s = .next t ∧
          t.sent = .frame n (min s.now (f.at_ + 7)) (s.bytes r.addr f.bytes.length) :: s.sent ∧
          (t.port n).timed = g.timed.erase f ∧ t.mem = s.mem ∧
          (s.regionHolds r.queue = false → (s.queue r.queue).state = .active →
            ∀ i ∈ (t.queue r.queue).items, i.cell = r.cell → i.seq ≠ some f.seq))) ∧
      (s.endsLate n f = true → ∃ t, exec (.timedLaunch port ⟨b, .ok⟩) s = .next t ∧ (t.port n).timed = g.timed.erase f ∧
        (t.port n).late = g.late ∧ (t.port n).busy = g.busy ∧ none_ t) ∧
      (s.endsLate n f = false → f.at_ < f.commit + 1500 ∨ (b = true ∧ f.src ≠ none) →
        (s.dget (0x2110 + n) 2 = 1 → f.src = none ∨ b = true →
          ∃ t, exec (.timedLaunch port ⟨b, .ok⟩) s = .next t ∧ (t.port n).timed = g.timed.erase f ∧
            (t.port n).late = g.late ++ [{ f with at_ := f.at_ + 8 }] ∧ none_ t) ∧
        (s.dget (0x2110 + n) 2 ≠ 1 →
          ∃ t, exec (.timedLaunch port ⟨b, .ok⟩) s = .next t ∧ (t.port n).timed = g.timed.erase f ∧ (t.port n).late = g.late ∧
            none_ t))) ∧
    (∀ f r, g.gov = f :: r → s.wireFree n s.now f.bytes.length = true → ∃ t, exec (.untimedFrameStart ⟨port, chk⟩) s = .next t ∧
      (isSync f.bytes = false → sent n f s.now { g with gov := r } t) ∧
      (isSync f.bytes = true → s.dget 0x2140 5 = 1 →
        sent n { f with bytes := withOrigin f.bytes (BitVec.ofNat 64 s.now) } s.now { g with gov := r } t) ∧
      (isSync f.bytes = true → s.dget 0x2140 5 ≠ 1 → ∃ u, t = u.l2Event (16 + n / 4) ∧
        sent n f s.now { g with gov := r, twoStep := some (BitVec.ofNat 64 s.now) } u)) ∧
    (∀ q i rest a len, g.gov = [] → s.firstLate n = none → s.egressTurn n = some q → (s.queue q).items = i :: rest → (s.queue q).heldN = 0 →
      chk.cell.link = false → egressItem i = some (a, len) → s.untimedReads (s.queue q).owner.toNat a len = true →
      (s.wireFree n s.now len = true → s.untimedWaits a len = false →
        ∃ t, exec (.untimedFrameStart ⟨port, chk⟩) s = .next t ∧ Sent.frame n s.now (s.bytes a len) ∈ t.sent ∧
          (chk.data ≠ .uncorrectable → (t.queue q).items = rest ∧ (t.port n).rr = q ∧ t.mem = s.mem)) ∧
      (s.wireFree n s.now len = false ∨ s.untimedWaits a len = true →
        ∃ t, exec (.untimedFrameStart ⟨port, chk⟩) s = .next t ∧ t = s)) ∧
    (∀ f, s.firstLate n = some f →
      (f ∈ g.late ∧ f.src = none ∧ ∀ y ∈ g.late, s.lateReady y = true → f.commit ≤ y.commit) ∧
      (g.gov = [] → s.egressTurn n = none → s.wireFree n s.now f.bytes.length = true →
        ∃ t, exec (.untimedFrameStart ⟨port, chk⟩) s = .next t ∧ sent n f s.now { g with late := g.late.erase f } t))

/-- R407 to R412, R417 to R422: the rate, the slew and the step of TB, which governor firmware makes where R409 admits one and turns
into a slew elsewhere and for an offset not above STEP_THRESHOLD, and after which TB is the step value in the next TIME cycle;
PPS; and the timer channels, whose ticks of an
earlier cycle count at the TIMER_TICK and of the present one at its end (the model's choice of the log entries 22 and 147). -/
def Obligations.TimebaseAndTimers : Prop :=
  ∀ (s : State) (v : Word) (p n : PartId) (level : Bool),
    let x := s.time
    let b := s.tblock p.toNat
    let c := b.chan n.toNat
    let started (j cyc : Nat) (t : State) : Prop := (t.tblock p.toNat).chan j =
      { b.chan j with
        cnt := (b.chan j).phase, top := (b.chan j).reload, en := true, wait := false,
        origin := cyc, last := cyc, fell := false, begun := some cyc }
    let others (t : State) : Prop := { t with timers := s.timers } = s ∧ ∀ j, j ≠ n.toNat → (t.tblock p.toNat).chan j = b.chan j
    (-204800000 ≤ v.toInt → v.toInt ≤ 204800000 →
      ∃ t, exec (.tbFreq v) s = .next t ∧ t = { s with time := { x with freq := v } }) ∧
    (v.toInt < -204800000 ∨ 204800000 < v.toInt → ∃ t, exec (.tbFreq v) s = .next t ∧ t = s) ∧
    (∃ t, exec (.tbSlew v) s = .next t ∧ t = { s with time := { x with slew := v.toInt, slewing := decide (v ≠ 0), slewPart := 0 } }) ∧
    (x.slew = 0 → ∃ t, exec .slewEnd s = .next t ∧ t = { s with time := { x with slewing := false } }) ∧
    (s.mayStep = true → s.dget 0x7000 4 < x.lag.natAbs →
      ∃ t, exec .stepTb s = .next t ∧ t = { s with time := { x with stepping := true } }) ∧
    (s.mayStep = false ∨ x.lag.natAbs ≤ s.dget 0x7000 4 → ∃ t, exec .stepTb s = .next t ∧ t = { s with time := { x with
      slewRate := BitVec.ofNat 8 (s.dget 0x7000 3), slew := x.offset.toInt, slewing := decide (x.offset ≠ 0), slewPart := 0 } }) ∧
    (x.stepping = true → s.pending = [] → s.rst.pwrLow = false → s.rst.held = false → (∀ e ∈ s.timers, ∀ y ∈ e.2.ch, y.2.fell = false) →
      ∃ t, step s = .next t ∧ t.time.tb = x.setHi ++ x.setLo ∧ t.time.stepping = false ∧
        (b.waiting ≠ 0 → s.now < b.at_.toNat → b.at_.toNat < (x.setHi ++ x.setLo).toNat →
          (t.tblock p.toNat).late = true ∧ ∀ j, j < 16 → (b.chan j).wait = true → started j (s.clock.cycles + 1) t) ∧
        (b.at_.toNat ≤ s.now → b.at_ ≠ x.setHi ++ x.setLo → t.tblock p.toNat = b)) ∧
    (x.inen = true → level ≠ x.ppsIn → level ≠ x.inpol → (∀ e, x.lastEdge = some e → e + 100 ≤ s.clock.cycles) →
      ∃ t, exec (.ppsIn level) s = .next t ∧ t.time = { x with ppsIn := level, cap := x.tb, seq := x.seq + 1, lastEdge := some s.clock.cycles } ∧
        tabGet false t.l2.pend 27 = true ∧ { t with time := x, l2 := s.l2 } = s) ∧
    (x.inen = false ∨ level = x.ppsIn ∨ level = x.inpol ∨ (∃ e, x.lastEdge = some e ∧ s.clock.cycles < e + 100) →
      ∃ t, exec (.ppsIn level) s = .next t ∧ t = { s with time := { x with ppsIn := level } }) ∧
    (x.outen = true → s.now % 1000000000 = x.off →
      ∃ t, exec .ppsOutRise s = .next t ∧ t = { s with time := { x with ppsOut := true, riseAt := s.clock.cycles } }) ∧
    (x.ppsOut = true → ∃ t, exec .ppsOutFall s = .next t ∧
      t = if x.riseAt + x.width ≤ s.clock.cycles then { s with time := { x with ppsOut := false } } else s) ∧
    (c.due s.clock.cycles = false → ∃ t, exec (.timerTick p n) s = .next t ∧ t = s) ∧
    (c.due s.clock.cycles = true → c.next = s.clock.cycles →
      ∃ t, exec (.timerTick p n) s = .next t ∧ others t ∧ (t.tblock p.toNat).chan n.toNat = { c with fell := true }) ∧
    (c.due s.clock.cycles = true → c.next < s.clock.cycles → (∃ u, c.held = some u ∧ c.next ≤ u) →
      ∃ t, exec (.timerTick p n) s = .next t ∧ others t ∧ (t.tblock p.toNat).chan n.toNat = { c with last := c.next, fell := false }) ∧
    (c.due s.clock.cycles = true → c.next < s.clock.cycles → (∀ u, c.held = some u → u < c.next) → (n.toNat = 15 ∨ (b.chan (n.toNat + 1)).chain = false) →
      let cnt : Word := if c.down then (if c.cnt = 0 then c.reload else c.cnt - 1)
        else if c.cnt = c.top ∨ c.cnt = 0xFFFFFFFF then 0 else c.cnt + 1
      let top : Word := if c.down then (if c.cnt = 0 then c.reload else c.top)
        else if c.cnt = c.top ∨ c.cnt = 0xFFFFFFFF then c.reload else c.top
      let zero : Bool := if c.down then decide (c.cnt = 1) else decide (c.cnt = c.top ∨ c.cnt = 0xFFFFFFFF)
      let mat : Bool := decide (cnt ≠ c.cnt ∧ cnt = c.cmp ∧ c.cmp.toNat ≤ top.toNat)
      ∃ (t : State) (cmp : Word), exec (.timerTick p n) s = .next t ∧ (c.autoadd = false ∨ mat = false → cmp = c.cmp) ∧
        (t.tblock p.toNat).chan n.toNat = { c with
          cnt := cnt, top := top, cmp := cmp, matched := c.matched || (mat && c.imatch), zero := c.zero || (zero && c.izero),
          last := c.next, fell := false } ∧
        { t with timers := s.timers, l1s := s.l1s } = s ∧
        (∀ j, j ≠ n.toNat → (t.tblock p.toNat).chan j = b.chan j) ∧
        (((mat && c.imatch) || (zero && c.izero)) = true → c.all = false → s.partOf c.route.toNat = some p.toNat →
          s.oos c.route.toNat = false → (s.pos (s.posOf c.route.toNat)).st ≠ 2 →
          (t.l1 (s.posOf c.route.toNat)).pend.getLsbD (16 + n.toNat) = true)) ∧
    (v.getLsbD 0 = true → ∃ t, exec (.immediate p n v) s = .next t ∧ { t with timers := s.timers } = s ∧
      (t.tblock p.toNat).chan n.toNat = { c with cnt := (if c.down then c.reload else 0), top := c.reload, held := some s.clock.cycles }) ∧
    (∃ t, exec (.tmCnt p n v) s = .next t ∧ { t with timers := s.timers } = s ∧ (t.tblock p.toNat).chan n.toNat = { c with cnt := v, held := some s.clock.cycles }) ∧
    (∃ t, exec (.tmbStart p v) s = .next t ∧ { t with timers := s.timers } = s ∧ ∀ j, j < 16 →
      ((v.getLsbD 16 = false ∨ b.at_.toNat ≤ s.now) → v.getLsbD j = true → started j s.clock.cycles t) ∧
      ((b.chan j).wait = true → b.at_.toNat = s.now → started j s.clock.cycles t) ∧
      ((v.getLsbD 16 = false ∨ b.at_.toNat ≤ s.now) → v.getLsbD j = false → (b.chan j).wait = false ∨ s.now ≠ b.at_.toNat →
        (t.tblock p.toNat).chan j = { b.chan j with wait := false }) ∧
      (v.getLsbD 16 = true → s.now < b.at_.toNat → (t.tblock p.toNat).chan j = { b.chan j with wait := v.getLsbD j }) ∧
      ((t.tblock p.toNat).late = (b.late || (v.getLsbD 16 && decide (b.at_.toNat < s.now))))) ∧
    (b.waiting ≠ 0 → b.at_.toNat = s.now → ∃ t, exec (.tmbAtReached p) s = .next t ∧ { t with timers := s.timers } = s ∧
      ∀ j, j < 16 → (b.chan j).wait = true → started j s.clock.cycles t) ∧
    (b.at_.toNat ≠ s.now → ∃ t, exec (.tmbAtReached p) s = .next t ∧ t = s)

/-- R366 to R373, R377 to R383: level 1 delivers the lowest unmasked source of its spindle, level 2 one of the highest
priority; the registers that set, clear and claim pending bits; the end of a hold-off, in the nanosecond in which its last cycle
passes (the model's choice of the log entry 118); the event log; and the unmasking of an MSI-X vector. -/
def Obligations.InterruptsReachTheirTargets : Prop :=
  ∀ (s : State) (k : Spindle) (d : BitVec 2) (w : PosId) (g : SegId) (v : DWord) (c : BitVec 12) (u : BitVec 6) (f : Fn) (vec : BitVec 7),
    let core : CoreId := ⟨k.toNat, by have := k.isLt; omega⟩
    let dist : CoreId := ⟨128 + d.toNat, by have := d.isLt; omega⟩
    let x := s.l1 w.val
    let q := s.posOf k.toNat
    let e := s.msixEnt (fnKey f) vec.toNat
    (∀ m, s.l1Pick k.toNat = some m → s.l1Unmasked k.toNat m = true ∧ (∀ j, j < m → s.l1Unmasked k.toNat j = false) ∧
      ((s.disp k.toNat).drain = true → ∃ t, exec (.interruptDelivery core) s = .next t ∧ t = s) ∧
      (s.atBoundary k.toNat = true → (s.disp k.toNat).drain = false → (s.fetchFault k.toNat (intVector (s.cpu k.toNat).vbase m)).isSome = false →
        ((s.core k.toNat).run = .executing ∨ (s.core k.toNat).run = .wfi) → (s.cpu k.toNat).ie = true → (s.cpu k.toNat).inServ = none →
        ∃ t, exec (.interruptDelivery core) s = .next t ∧ t.pc k.toNat = intVector (s.cpu k.toNat).vbase m ∧
          (t.cpu k.toNat).epc = s.pc k.toNat ∧ (t.cpu k.toNat).est = s.stReg k.toNat ∧
          (t.cpu k.toNat).ecause = BitVec.ofNat 64 (32 + m * 64) ∧ (t.cpu k.toNat).eaddr = 0 ∧ (t.cpu k.toNat).resv = none ∧
          (t.cpu k.toNat).st = BitVec.ofNat 64 (1 + fld (s.cpu k.toNat).st.toNat 3 1 * 8) ∧
          (t.cpu k.toNat).inServ = some (BitVec.ofNat 6 m) ∧ (t.core k.toNat).run = .executing ∧
          (t.l1 q).pend.getLsbD m = false ∧ (t.l1 q).active.getLsbD m = true ∧ t.mem = s.mem) ∧
      (s.atBoundary k.toNat = true → (s.disp k.toNat).drain = false → (s.fetchFault k.toNat (intVector (s.cpu k.toNat).vbase m)).isSome = false →
        (s.core k.toNat).run = .idle → s.dispatchDue k.toNat = false →
        ∃ t, exec (.interruptDelivery core) s = .next t ∧ t.pc k.toNat = intVector (s.cpu k.toNat).vbase m ∧
          (t.cpu k.toNat).epc = idleMarker ∧ (t.cpu k.toNat).est = 5 ∧ (t.disp k.toNat).handler = true ∧
          (t.core k.toNat).run = .executing)) ∧
    (∀ m, s.l2Select d.toNat = some m → s.l2Eligible d.toNat m = true ∧ (∀ j, s.l2Eligible d.toNat j = true → l2Prio s j ≤ l2Prio s m)) ∧
    (s.l2Held d.toNat = none → s.l2Pick d.toNat = s.l2Select d.toNat) ∧
    (∀ m, s.l2Pick d.toNat = some m →
      (∃ t, exec (.claim d) s = .next t ∧ t.resp = .data (bytesOfNat 4 m) ∧ tabGet false t.l2.pend m = false ∧
        tabGet false t.l2.active m = true ∧ tabGet 0 t.l2.remain (m / 64) = 64 * tabGet 0 s.l2.hold (m / 64) ∧
        ∀ j, j ≠ m → tabGet false t.l2.pend j = tabGet false s.l2.pend j ∧ tabGet false t.l2.active j = tabGet false s.l2.active j) ∧
      (s.atBoundary dist.val = true → (s.core dist.val).run = .executing → (s.cpu dist.val).ie = true → (s.cpu dist.val).vbase.getLsbD 0 = true →
        (s.fetchFault dist.val (intVector (s.cpu dist.val).vbase 0)).isSome = false →
        ∃ t, exec (.interruptDelivery dist) s = .next t ∧ t.pc dist.val = intVector (s.cpu dist.val).vbase 0 ∧
          (t.cpu dist.val).epc = s.pc dist.val ∧ (t.cpu dist.val).ecause = 32 ∧ t.l2 = s.l2)) ∧
    (s.l2Pick d.toNat = none → ∃ t, exec (.claim d) s = .next t ∧ t = { s with resp := .data (bytesOfNat 4 0) }) ∧
    (∃ t, exec (.complete d c) s = .next t ∧ (∀ j, tabGet false t.l2.active j = (tabGet false s.l2.active j &&
      !(decide (j = c.toNat) && decide (fld (tabGet (0 : BitVec 7) s.l2.src c.toNat).toNat 4 2 = d.toNat)))) ∧
      { t with l2 := s.l2 } = s ∧ t.l2.pend = s.l2.pend) ∧
    (∃ t, exec (.l2Set u v) s = .next t ∧ { t with l2 := s.l2 } = s ∧ t.l2.active = s.l2.active ∧
      ∀ j, j < 64 → tabGet false t.l2.pend (64 * u.toNat + j) =
        (tabGet false s.l2.pend (64 * u.toNat + j) || (v.getLsbD j && l2Valid (64 * u.toNat + j)))) ∧
    (tabGet 0 s.l2.remain u.toNat ≤ 1 → ∃ t, exec (.l2HoldoffExpiry u) s = .next t ∧ tabGet 0 t.l2.remain u.toNat = 0 ∧
      (∀ j, j ≠ u.toNat → tabGet 0 t.l2.remain j = tabGet 0 s.l2.remain j) ∧
      { t with l2 := { t.l2 with remain := s.l2.remain } } = s) ∧
    (1 < tabGet 0 s.l2.remain u.toNat → ∃ t, exec (.l2HoldoffExpiry u) s = .next t ∧ t = s) ∧
    (tabGet 0 x.remain g.toNat ≤ s.coreCycles → ∃ t, exec (.l1HoldoffExpiry w g) s = .next t ∧ tabGet 0 (t.l1 w.val).remain g.toNat = 0 ∧
      (∀ j, j ≠ g.toNat → tabGet 0 (t.l1 w.val).remain j = tabGet 0 x.remain j) ∧ { t.l1 w.val with remain := x.remain } = x ∧
      (∀ j, j ≠ w.val → t.l1 j = s.l1 j) ∧ { t with l1s := s.l1s } = s) ∧
    (s.coreCycles < tabGet 0 x.remain g.toNat → ∃ t, exec (.l1HoldoffExpiry w g) s = .next t ∧ t = s) ∧
    ((s.pos w.val).st ≠ 2 → ∃ t, exec (.l1Set w v) s = .next t ∧ { t with l1s := s.l1s } = s ∧
      (∀ j, j < 64 → (t.l1 w.val).pend.getLsbD j = (x.pend.getLsbD j || (v.getLsbD j && l1Valid j))) ∧ (t.l1 w.val).active = x.active) ∧
    ((s.pos w.val).st = 2 → ∃ t, exec (.l1Set w v) s = .next t ∧ t = s) ∧
    (∃ t, exec (.l1Clr w v) s = .next t ∧ t = s.setL1 w.val { x with pend := x.pend &&& ~~~v }) ∧
    (x.evt = [] → ∃ t, exec (.l1Evt w) s = .next t ∧ t = { s with resp := .data (bytesOfNat 8 0) }) ∧
    (∀ y kind r, x.evt = (y, kind) :: r → ∃ t, exec (.l1Evt w) s = .next t ∧ t.l1 w.val = { x with evt := r } ∧
      t.resp = .data (bytesOfNat 8 (y + kind * 2 ^ 18 + 2 ^ 63)) ∧ t.mem = s.mem ∧ t.cores = s.cores) ∧
    (s.hostUp = false → ∃ t, exec (.msixUnmask f vec) s = .next t ∧ t = s) ∧
    (s.hostUp = true → vec.toNat < msixSize (fnKey f) →
      (e.pend = true → (tabGet ({} : MsixFn) s.msixFns (fnKey f)).enable = true → (tabGet ({} : MsixFn) s.msixFns (fnKey f)).fmask = false →
        ∃ t, exec (.msixUnmask f vec) s = .next t ∧
          let z := s.setMsix (fnKey f) vec.toNat { e with mask := false, pend := false }
          t = if Config.msixPermits (fnKey f) e.addr.toNat = false then z.l2Event 24
            else if s.msixUnsent (fnKey f) vec.toNat = true then z
            else z.send (.msix (fnKey f) vec.toNat e.addr e.data)) ∧
      (e.pend = false → ∃ t, exec (.msixUnmask f vec) s = .next t ∧ t = s.setMsix (fnKey f) vec.toNat { e with mask := false }))

/-! ## Shuttles (13) -/

/-- R385 to R395: arming and background lists; the start of the list that goes before every other; a descriptor that moves
its bytes and ends its list; the halts; and the commands of SH_CTL, of which RESUME and SKIP do nothing in FAULT (17 R504). That
SKIP of
a stopped channel, and of one that halted at the fetch, reads the descriptor at SH_CUR is the model's reading, log entry 75, and
that it
uses the NEXT of the descriptor last fetched after another cause is too, log entry 77. -/
def Obligations.ShuttleChannelsRunLists : Prop :=
  ∀ (s : State) (h : HoopId) (ch : SegId) (v : DWord),
    let k := chanOf h ch
    let x := s.shuttle k
    let a := fld v.toNat 0 43 * 32
    let c := fld v.toNat 43 18
    (s.shCtxOk k c = true →
      (x.room false = true ∨ (∃ e ∈ x.armed, e.1 = c) → ∃ t, exec (.arm h ch v) s = .next t ∧ { t with shuttles := s.shuttles } = s ∧
        { t.shuttle k with armed := x.armed } = x ∧ ∀ j, tabGet 0 (t.shuttle k).armed j = if j = c then a else tabGet 0 x.armed j) ∧
      (∃ t, exec (.disarm h ch v) s = .next t ∧ { t with shuttles := s.shuttles } = s ∧ { t.shuttle k with armed := x.armed } = x ∧
        ∀ j, tabGet 0 (t.shuttle k).armed j = if j = c then 0 else tabGet 0 x.armed j)) ∧
    (s.shCtxOk k c = false →
      (∃ t, exec (.arm h ch v) s = .next t ∧ t = s.setShuttle k { x with armref := true }) ∧
      (∃ t, exec (.disarm h ch v) s = .next t ∧ t = s.setShuttle k { x with armref := true })) ∧
    (x.room true = true → ∃ t, exec (.background h ch v) s = .next t ∧
      t = s.setShuttle k { x with
        ready := x.ready ++ [{ ctx := none, seq := 0, dl := none, ready := s.clock.u, order := x.order, addr := a }], order := x.order + 1 }) ∧
    (x.room true = false → ∃ t, exec (.background h ch v) s = .next t ∧ t = s.setShuttle k { x with full := true }) ∧
    (∀ l, x.st = .idle → x.best = some l → s.node ≠ .fault → l ∈ x.ready ∧ (∀ y ∈ x.ready, listBefore y l = false) ∧
      ∃ t, exec (.listStart h ch) s = .next t ∧ t = s.setShuttle k { x with
        st := .running, cur := some l, ready := x.ready.erase l, desc := l.addr, doneb := 0, cause := 0 }) ∧
    (∀ d, x.st = .running → s.shFetch k x.desc = some d → s.shReach k x.desc = .ok → d.malformed = false → d.qsrc = false → d.qdst = false → d.sfix = false →
      d.dfix = false → x.doneb = 0 → d.src + d.len ≤ hostWindow → d.dst + d.len ≤ hostWindow →
      (d.src + d.len ≤ d.dst ∨ d.dst + d.len ≤ d.src) →
      (∀ i, i < d.len / 32 → s.shReach k (d.src + 32 * i) = .ok ∧ s.shReach k (d.dst + 32 * i) = .ok) →
      ∃ t, exec (.descriptorComplete h ⟨ch, ⟨false, [], []⟩⟩) s = .next t ∧ memBecomes d.dst d.len (fun i => s.byte (d.src + i)) s t ∧
        (t.shuttle k).doneb = 0 ∧ (t.shuttle k).irqs = (if d.irq then min (x.irqs + 1) 0xFFFFFFFF else x.irqs) ∧
        (d.last = true → (t.shuttle k).lists = min (x.lists + 1) 0xFFFFFFFF ∧ (t.shuttle k).cur = none ∧
          ((t.shuttle k).st = if x.stop || decide (s.node = .fault) then .stopped else .idle)) ∧
        (d.last = false → (x.stop = true ∨ s.node = .fault) → (t.shuttle k).st = .stopped ∧ (t.shuttle k).desc = d.next) ∧
        (d.last = false → x.stop = false → s.node ≠ .fault → s.shYields k x = false →
          (t.shuttle k).st = .running ∧ (t.shuttle k).desc = d.next ∧ (t.shuttle k).cur = x.cur)) ∧
    (x.st = .running → s.shFetch k x.desc = none → ∃ t, exec (.shuttleHalt h ch .ok) s = .next t ∧ t.mem = s.mem ∧
      t.shuttle k = { x with st := .halted, cause := 3, faddr := x.desc, dir := false, stop := false } ∧
      tabGet false t.l2.pend (64 + k / 8) = true) ∧
    (∀ d, x.st = .running → s.shFetch k x.desc = some d → s.shReach k x.desc = .ok →
      ∃ t, exec (.shuttleHalt h ch .fetch) s = .next t ∧ t.mem = s.mem ∧
      t.shuttle k = { x with st := .halted, cause := 3, faddr := x.desc, dir := false, stop := false }) ∧
    (∀ d, x.st = .running → s.shFetch k x.desc = some d → s.shReach k x.desc = .ok → d.malformed = true →
      ∃ t, exec (.shuttleHalt h ch .ok) s = .next t ∧ t.mem = s.mem ∧
      t.shuttle k = { x with
        st := .halted, cause := 4, faddr := x.desc, dir := false, stop := false, next := d.next, last := d.last } ∧
      tabGet false t.l2.pend (64 + k / 8) = true) ∧
    (x.st = .running → ∃ t, exec (.shuttleStop h ch) s = .next t ∧ t = s.setShuttle k { x with stop := true }) ∧
    (x.st = .idle → ∃ t, exec (.shuttleStop h ch) s = .next t ∧ t = s.setShuttle k { x with st := .stopped, desc := 0 }) ∧
    (s.node = .fault → (∃ t, exec (.shuttleResume h ch) s = .next t ∧ t = s) ∧ ∃ t, exec (.shuttleSkip h ⟨ch, .ok⟩) s = .next t ∧ t = s) ∧
    (x.st = .stopped ∨ x.st = .halted →
      (s.node ≠ .fault → ∃ t, exec (.shuttleResume h ch) s = .next t ∧
        t = s.setShuttle k { x with st := (if x.cur.isSome then .running else .idle), cause := 0 }) ∧
      (∃ t, exec (.shuttleAbandon h ch) s = .next t ∧ t = s.setShuttle k { x with cur := none, st := .idle, cause := 0, doneb := 0 })) ∧
    (∀ d, s.node ≠ .fault → (x.st = .halted ∧ x.cause = 3) ∨ x.st = .stopped → x.cur.isSome = true → s.shFetch k x.desc = some d →
      s.shReach k x.desc = .ok →
      (∃ t, exec (.shuttleSkip h ⟨ch, .ok⟩) s = .next t ∧ t = (s.shSlots k x.desc none 0 0 0).setShuttle k (if d.last
        then { x with cur := none, st := .idle, cause := 0, doneb := 0 }
        else { x with st := .running, desc := d.next, cause := 0, doneb := 0 })) ∧
      ∃ t, exec (.shuttleSkip h ⟨ch, .uncorrectable⟩) s = .next t ∧ t.mem = s.mem ∧
        t.shuttle k = { x with st := .halted, cause := 3, faddr := x.desc, dir := false } ∧ tabGet false t.l2.pend (64 + k / 8) = true) ∧
    (s.node ≠ .fault → x.st = .halted → x.cause ≠ 3 ∨ x.cur = none → ∃ t, exec (.shuttleSkip h ⟨ch, .ok⟩) s = .next t ∧ t = s.setShuttle k (if x.last || x.cur.isNone
      then { x with cur := none, st := .idle, cause := 0, doneb := 0 }
      else { x with st := .running, desc := x.next, cause := 0, doneb := 0 })) ∧
    (x.st = .idle ∨ x.st = .running →
      (∃ t, exec (.shuttleResume h ch) s = .next t ∧ t = s) ∧ (∃ t, exec (.shuttleSkip h ⟨ch, .ok⟩) s = .next t ∧ t = s) ∧
      ∃ t, exec (.shuttleAbandon h ch) s = .next t ∧ t = s)

/-! ## Adaptation, positions and spares (02, 11, 17) -/

/-- R97, R98, R101, R494, R509, 11 R352, R495: a step change takes effect at its boundary, and a cool device steps up (to the
nearest permitted step, the model's choice of the log entry 126), with a new CORE cycle at it by the model's reading, log entry
128; a
replacement by the spare holds dispatch and level 1 delivery, moves the position's memories, level 1 controller and mapping 1,185
CORE
cycles later, and keeps the spare's place when the copy reads back; a mismatch gives the old position back with its level 1 state
and
marks the spare in POS_FAIL, by the model's reading, log entry 100; resets, power and tests of positions, of which a reset takes 2
µs
and a power-on 20 µs, which the TIME cycles count. That a spindle out of service gets a position as after a reset is the model's
choice,
log entry 142. -/
def Obligations.AdaptationAndPositions : Prop :=
  ∀ (s : State) (k : Spindle) (w : PosId) (l : List AdaptChoice) (path : Path) (b : Byte),
    let n := k.toNat
    let old := s.posOf n
    (∀ st at_, s.node ≠ .fault → 3 ≤ s.distaffRunning → s.atFrameBoundary = true → s.clock.nextStep = some (st, at_) → at_ < s.now →
      s.dget 0x2010 1 = 0 → s.stepForbidden st.toNat = false →
      ∃ t, exec (.adaptFrameBoundary l) s = .next t ∧ t = { s with clock := { s.clock with step := st, nextStep := none, phase := 0 } }) ∧
    (∀ u, s.node ≠ .fault → 3 ≤ s.distaffRunning → s.atFrameBoundary = true → s.clock.nextStep = none → s.dget 0x2010 1 = 1 →
      s.stepForbidden s.clock.step.toNat = false → s.hottest ≤ (sextNat 16 (s.dget 0x2010 12) - 5) * 8 →
      u < s.clock.step.toNat → s.fasterOk u = true → (∀ j, u < j → j < s.clock.step.toNat → s.fasterOk j = false) →
      ∃ t, exec (.adaptFrameBoundary []) s = .next t ∧ t = { s with clock := { s.clock with nextStep := some (BitVec.ofNat 2 u, s.now) } }) ∧
    (s.distaffRunning < 3 ∨ s.atFrameBoundary = false → ∃ t, exec (.adaptFrameBoundary l) s = .next t ∧ t = s) ∧
    (s.serves path = true → widePath path = true → b.toNat ≤ 0x0E → bitOf b.toNat s.clock.step.toNat = false →
      ∃ t, exec (.stepForbid path b) s = .next t ∧ answered path 0 t ∧ entrySet 0x2010 3 b.toNat s t ∧ t.clock = s.clock) ∧
    (∀ v, s.spareOf (n / 8) = some v → s.dget 0x2010 8 ≠ 0 → s.oos n = false → (s.disp n).running = none → (s.disp n).drain = false →
      (s.disp n).replaced = false → s.node ≠ .fault → (s.pos old).st = 0 → s.replaceDue n = true →
      ∃ t, exec (.spareReplacement k) s = .next t ∧ t.posMap = s.posMap ∧ (t.disp n).drain = true ∧ (t.disp n).replaced = true ∧
        tabGet none t.rst.spare n = some { old := old, new := v, start := s.clock.u } ∧ { t with disps := s.disps, rst := s.rst } = s) ∧
    (∀ m, s.rst.spare = [(n, some m)] → m.moved = false → m.new / 9 = n / 8 → m.start + 1185 ≤ s.clock.u → s.pending = [] →
      s.rst.pwrLow = false → s.rst.held = false → ∃ t, step s = .next t ∧ t.posOf n = m.new) ∧
    (∀ v, s.spareFor n = some v → s.oos n = true → s.posFailed old = true →
      ∃ t, exec (.spareReplacement k) s = .next t ∧ t.posOf n = v ∧ t.oos n = false ∧ t.core n = Core.init n ∧ t.mem = s.mem) ∧
    (∀ m, tabGet none s.rst.spare n = some m →
      (m.moved = true →
        (∃ t, exec (.spareReadbackEnd k true) s = .next t ∧ (t.disp n).drain = false ∧ t.posMap = s.posMap ∧
          t.pos m.old = { st := 1, due := some (s.clock.cycles + 2000), test := true } ∧ tabGet none t.rst.spare n = none ∧
          ((s.core n).run = .halted → s.logOf m.old ≠ some n → t.core n = Core.init n)) ∧
        (m.old / 9 = n / 8 → (s.core n).run ≠ .halted → ∃ t, exec (.spareReadbackEnd k false) s = .next t ∧ (t.disp n).drain = false ∧
          t.posOf n = m.old ∧ t.posFailed m.new = true ∧ t.l1 m.old = s.l1 m.new ∧ t.cores = s.cores)) ∧
      (m.moved = false → m.old = old → m.new / 9 = n / 8 → m.new ≠ m.old → Memory.wf s.mem = true →
        ∃ t, exec (.spareReadbackEnd k true) s = .next t ∧ t.posOf n = m.new ∧ (∀ j, j ≠ n → t.posOf j = s.posOf j) ∧
          memBecomes (posWindow m.new) 0x20000 (fun i => s.byte (posWindow old + i)) s t ∧ t.l1 m.new = s.l1 old)) ∧
    (s.posWritable w.val = true →
      ((s.pos w.val).st = 0 ∨ (s.pos w.val).st = 4 → ∃ t, exec (.spindleReset w) s = .next t ∧ t.l1 w.val = {} ∧ t.mem = s.mem ∧
        t.mc w.val = {} ∧ t.pos w.val = { st := 1, due := some (s.clock.cycles + 2000) } ∧ (0, w.val) ∉ t.rst.tests ∧
        ∀ j, s.logOf w.val = some j → t.core j = { Core.init j with run := .off } ∧ t.seqr j = {}) ∧
      ((s.pos w.val).st ≠ 2 → ∃ t, exec (.positionPower w true) s = .next t ∧ memBecomes (posWindow w.val) 0x20000 (fun _ => 0) s t ∧
        (t.pos w.val).off = true ∧ (t.pos w.val).st = 2 ∧ t.l1 w.val = {} ∧ t.mc w.val = {}) ∧
      ((s.pos w.val).st = 2 → ∃ t, exec (.positionPower w false) s = .next t ∧
        t = s.setPos w.val { st := 3, due := some (s.clock.cycles + 20000) }) ∧
      ((s.pos w.val).st = 0 → s.logOf w.val = none → ∃ t, exec (.positionBist w) s = .next t ∧ (t.pos w.val).st = 4 ∧
        (0, w.val) ∈ t.rst.tests ∧ t.mem = s.mem)) ∧
    (∀ e, (s.pos w.val).due = some e → e ≤ s.clock.cycles + 1 → s.pending = [] → s.rst.pwrLow = false → s.rst.held = false →
      s.rst.spare = [] → ∃ t, step s = .next t ∧
        (if (s.pos w.val).test = true ∧ (s.pos w.val).st ≠ 3 then t.pos w.val = { st := 4 } ∧ (0, w.val) ∈ t.rst.tests
          else t.pos w.val = {} ∧ t.mc w.val = patchMc (s.dom 0x2030 1))) ∧
    (s.posWritable w.val = false → (∃ t, exec (.spindleReset w) s = .next t ∧ t = s) ∧
      (∃ t, exec (.positionPower w true) s = .next t ∧ t = s) ∧ ∃ t, exec (.positionBist w) s = .next t ∧ t = s) ∧
    ((s.core n).run = .halted → s.oos n = false → s.node ≠ .fault → s.distaffRunning ≠ 0 → (s.pos old).st = 0 → (s.disp n).running = none →
      (∀ v, s.spareFor n = some v → ∃ t, exec (.outOfService k) s = .next t ∧ t.posMap = s.posMap ∧ (t.disp n).drain = true ∧ t.oos n = false ∧
        tabGet none t.rst.spare n = some { old := old, new := v, start := s.clock.u }) ∧
      (s.spareFor n = none → (∀ e ∈ s.liveCtxs, ctxSpindle e.2 ≠ n) →
        ∃ t, exec (.outOfService k) s = .next t ∧ t.oos n = true ∧ t.mem = s.mem ∧
          t.pos old = { st := 1, due := some (s.clock.cycles + 2000), test := true }))

/-! ## The host side (15) -/

/-- R427, R429, R431, R433, R434, R441, 12 R377, 17 R491: function level resets; CXL accesses and the decoders' commits; links;
the ring registers, whose reserved LOG2 changes nothing (00 R22); spindle doorbells; an address translation that reaches the
endpoint's cache. A CXL access to a granule that a range change has taken from a decoder reads poison and drops a write. (The
model's
readings: source 24 at a function's reset is log entry 86, a CXL access that waits for Throughput service 135, the answers to a host
snoop 83, the form in which a translation comes 84.) -/
def Obligations.HostFunctionsRingsAndLinks : Prop :=
  ∀ (s : State) (p : PartId) (base count : BitVec 12) (a : DWord) (d : BitVec 2048) (wd sp md : Byte) (port : PortId) (up : Bool)
    (r : StackId) (v : DWord) (i : BitVec 17) (k : Spindle) (sk : SnoopKind) (x : Rec64) (chk : DataCheck),
    let g := s.ring p.toNat r.toNat
    let line := a.toNat / 64 * 64
    let hdm : Hdm := tabGet {} s.hdms p.toNat
    let first := s.dget (0x3000 + p.toNat) 8
    (∃ t, exec (.vfFlr p) s = .next t ∧ (∀ j, j < 4 → t.ring p.toNat j = {}) ∧ t.mailbox (.vf p) = {} ∧
      (∀ j, j < 2048 → t.msixEnt p.toNat j = {}) ∧ tabGet {} t.msixFns p.toNat = {} ∧ tabGet false t.l2.pend 24 = true ∧
      (∀ q : PartId, q ≠ p → (∀ j, j < 4 → t.ring q.toNat j = s.ring q.toNat j) ∧ t.mailbox (.vf q) = s.mailbox (.vf q)) ∧
      t.mem = s.mem ∧ t.store = s.store ∧ t.qe = s.qe ∧ t.parts = s.parts) ∧
    (∃ t, exec .pfFlr s = .next t ∧ t.mailbox .pf = {} ∧ (∀ j, j < 2048 → t.msixEnt 16 j = {}) ∧ tabGet false t.l2.pend 24 = true ∧
      t.rings = s.rings ∧ t.mem = s.mem ∧ t.store = s.store ∧ t.qe = s.qe) ∧
    (s.cxlMode = true → 0 < count.toNat → first ≤ base.toNat → base.toNat + count.toNat ≤ first + s.dget (0x3000 + p.toNat) 9 →
      ∃ t, exec (.hdmCommit p base count) s = .next t ∧ t.resp = .none ∧
        tabGet {} t.hdms p.toNat = { base := base.toNat, count := count.toNat, committed := true, refused := false } ∧ t.mem = s.mem) ∧
    (count = 0 ∨ base.toNat < first ∨ first + s.dget (0x3000 + p.toNat) 9 < base.toNat + count.toNat →
      ∃ t, exec (.hdmCommit p base count) s = .next t ∧ t.resp = .error ∧ (tabGet ({} : Hdm) t.hdms p.toNat).committed = false) ∧
    (s.cxlMode = true → s.hdmOf line = some p.toNat →
      (s.hbmServes line p.toNat = true → s.matrixNow line 64 = false → ∃ t, exec (.cxlMemAccess a ⟨.read, chk⟩) s = .next t ∧ t = s) ∧
      (s.hbmServes line p.toNat = true → s.matrixNow line 64 = true →
        (∃ t, exec (.cxlMemAccess a ⟨.read, .ok⟩) s = .next t ∧ t = { s with resp := .data (s.bytes line 64) }) ∧
        (∃ t, exec (.cxlMemAccess a ⟨.write d, chk⟩) s = .next t ∧ memBecomes line 64 (fun j => d.extractLsb' (8 * j) 8) s t ∧ t.resp = .none)) ∧
      (s.hbmServes line p.toNat = false →
        (∃ t, exec (.cxlMemAccess a ⟨.read, chk⟩) s = .next t ∧ t = { s with resp := .poison }) ∧
        (∃ t, exec (.cxlMemAccess a ⟨.write d, chk⟩) s = .next t ∧ t = { s with resp := .none }))) ∧
    (hdm.committed = true → (tabGet ({} : Hdm) (s.dropHdm p.toNat).hdms p.toNat).committed = false ∧
      (hdm.base ≤ line / 2 ^ 26 → line / 2 ^ 26 < hdm.base + hdm.count → ((s.dropHdm p.toNat).hdmOf line).isSome = true)) ∧
    (hdm.committed = true → hdm.base ≤ line / 2 ^ 26 → line / 2 ^ 26 < hdm.base + hdm.count → (s.hdmOf line).isSome = true) ∧
    (s.cxlMode = true → ∃ t, exec (.cxlHostSnoop sk a) s = .next t ∧ t.mem = s.mem ∧ t.resp ≠ .none ∧
      (sk = .inv → ∀ e ∈ t.cxlCache, e.1 ≠ a.toNat / 64) ∧ (sk ≠ .inv → t.cxlCache = s.cxlCache) ∧
      ∀ e, e.1 ≠ a.toNat / 64 → (e ∈ t.cxlCache ↔ e ∈ s.cxlCache)) ∧
    (wd = 0 → sp = 0 → md = 0 → ∃ t, exec (.pcieLinkChange wd sp md) s = .next t ∧ t.dget 0x2200 5 = 0 ∧ t.dget 0x2200 6 = 0 ∧
      t.dget 0x2200 7 = 0 ∧ tabGet false t.l2.pend 24 = true ∧ t.mem = s.mem) ∧
    (s.rst.perstLow = false → s.rst.tripped = false → s.node ≠ .init → (s.dget 0x2200 3 = 1 → sp.toNat ≤ 5) → (wd = 4 ∨ wd = 8 ∨ wd = 16) → wd.toNat ≤ s.dget 0x2200 1 → 1 ≤ sp.toNat → sp.toNat ≤ s.dget 0x2200 2 → md = 0 →
      ∃ t, exec (.pcieLinkChange wd sp md) s = .next t ∧ t.dget 0x2200 5 = wd.toNat ∧ t.dget 0x2200 6 = sp.toNat ∧
        t.dget 0x2200 7 = 0 ∧ tabGet false t.l2.pend 24 = true) ∧
    ((s.portRate port.toNat).isSome = true → (up = false ∨ s.rst.standby = false ∧ s.rst.tripped = false) → ∃ t, exec (.ethernetLinkChange port up) s = .next t ∧
      entrySet (0x2110 + port.toNat) 5 (if up then 1 else 0) s t ∧ tabGet false t.l2.pend (16 + port.toNat / 4) = true ∧
      { t with dict := s.dict, l2 := s.l2 } = s) ∧
    (s.hostUp = true → g.en = false → v.getLsbD 8 = true →
      (6 ≤ fld v.toNat 0 5 → fld v.toNat 0 5 ≤ 16 → ∃ t, exec (.ringEnable p r v) s = .next t ∧ t = s.setRing p.toNat r.toNat { g with
        err := g.err && !v.getLsbD 9, log2 := fld v.toNat 0 5, en := true, pi := 0, ci := 0, stopped := false }) ∧
      ((fld v.toNat 0 5 < 6 ∨ 16 < fld v.toNat 0 5) → ∃ t, exec (.ringEnable p r v) s = .next t ∧ t = s.setRing p.toNat r.toNat { g with
        err := true })) ∧
    (s.hostUp = true → g.en = false → v.getLsbD 8 = false → ∃ t, exec (.ringEnable p r v) s = .next t ∧
      t = s.setRing p.toNat r.toNat { g with
        err := g.err && !v.getLsbD 9, log2 := if 6 ≤ fld v.toNat 0 5 ∧ fld v.toNat 0 5 ≤ 16 then fld v.toNat 0 5 else g.log2 }) ∧
    (s.hostUp = true → g.en = true → v.getLsbD 8 = false → ∃ t, exec (.ringEnable p r v) s = .next t ∧
      t = s.setRing p.toNat r.toNat { g with err := g.err && !v.getLsbD 9, en := false }) ∧
    (s.hostUp = true → r = 0 ∨ r = 2 → (i.toNat + 2 ^ 17 - g.ci) % 2 ^ 17 ≤ g.size → ∃ t, exec (.ringPi p r i) s = .next t ∧
      t.ring p.toNat r.toNat = { g with pi := i.toNat, stopped := false } ∧
      tabGet false t.l2.pend (if r = 0 then 128 + p.toNat else 144 + p.toNat) = true ∧ { t with rings := s.rings, l2 := s.l2 } = s) ∧
    (s.hostUp = true → r = 0 ∨ r = 2 → g.size < (i.toNat + 2 ^ 17 - g.ci) % 2 ^ 17 → ∃ t, exec (.ringPi p r i) s = .next t ∧
      t = s.setRing p.toNat r.toNat { g with err := true }) ∧
    (s.hostUp = true → r = 1 ∨ r = 3 → (∃ t, exec (.ringPi p r i) s = .next t ∧ t = s) ∧
      ∃ t, exec (.ringCi p r i) s = .next t ∧ t = s.setRing p.toNat r.toNat { g with ci := i.toNat }) ∧
    (r = 0 ∨ r = 2 → ∃ t, exec (.ringCi p r i) s = .next t ∧ t = s) ∧
    (s.hostUp = true → s.partOf k.toNat = some p.toNat → s.oos k.toNat = false → (s.pos (s.posOf k.toNat)).st ≠ 2 →
      ∃ t, exec (.spindleDoorbell p k) s = .next t ∧ (t.l1 (s.posOf k.toNat)).pend.getLsbD 1 = true ∧ { t with l1s := s.l1s } = s) ∧
    (s.partOf k.toNat ≠ some p.toNat → ∃ t, exec (.spindleDoorbell p k) s = .next t ∧ t = s) ∧
    (s.hostUp = false → (∃ t, exec (.ringEnable p r v) s = .next t ∧ t = s) ∧ (∃ t, exec (.ringPi p r i) s = .next t ∧ t = s) ∧
      (∃ t, exec (.ringCi p r i) s = .next t ∧ t = s) ∧ ∃ t, exec (.spindleDoorbell p k) s = .next t ∧ t = s) ∧
    (s.node ≠ .fault → s.rst.perstLow = false →
      ∃ t, exec (.hostReadCompletion (BitVec.ofNat 16 (p.toNat + 48)) (some x)) s = .next t ∧
        (p.toNat, recByte x 0 8 / 4096, recByte x 8 8 / 4096) ∈ t.ats ∧ { t with ats := s.ats, clock := s.clock } = s)

/-- R217, R230, R235, R438 to R440, 12 R376, R382: the commands of a partition's submission ring. Each takes its entry,
acts, and is answered DONE on the completion ring; PRICKING and RULE_ADD are answered when their image has been read. -/
def Obligations.SubmissionRingCommands : Prop :=
  ∀ (s : State) (p : PartId) (e x : Rec64),
    let op := recByte e 0 1
    let tag := recByte e 2 2
    let q := recByte e 4 2
    let y := s.queue q
    let b6 := recByte e 6 1
    let b7 := recByte e 7 1
    let did (u t : State) (detail : Nat) : Prop := t = u.ccqAnswer p.toNat op tag 0 detail
    let mine := y.state = .active ∧ y.owner = p
    let kept (u : State) : Prop := (u.ring p.toNat 2).ci = ((s.ring p.toNat 2).ci + 1) % 2 ^ 17 ∧ u.mem = s.mem ∧ u.parts = s.parts
    (s.csqReady p.toNat = true → s.csqHeld p.toNat e = false → cmdClean e (cmdBytes op) = true →
    (op = 1 → y.state = .free → b6 ≤ 1 → b7 ≤ 4 → recByte e 8 4 < 2 ^ 20 →
      s.regionClim p.toNat + s.regionPark p.toNat + recByte e 8 4 ≤ (s.region p.toNat).quota →
      ∃ (t u : State), exec (.qcreate p e) s = .next t ∧ did u t 0 ∧ kept u ∧ (u.queue q).state = .active ∧ (u.queue q).owner = p ∧
        ((u.queue q).flush = decide (b6 = 1)) ∧ (u.queue q).prod.toNat = b7 ∧ (u.queue q).clim = recByte e 8 4 ∧ (u.queue q).items = []) ∧
    (op = 2 → mine → y.items = [] → s.stagedFor q = false → y.inb = none → y.outb = none →
      ∃ (t u : State), exec (.qdelete p e) s = .next t ∧ did u t 0 ∧ kept u ∧ (u.queue q).state = .free) ∧
    (op = 3 → mine → b6 ≤ 63 → b7 ≤ 1 → s.othersIn p.toNat = [] →
      ∃ (t u : State), exec (.qgroup p e) s = .next t ∧ did u t 0 ∧ kept u ∧ (u.queue q).wmg.toNat = b6 ∧ ((u.queue q).wmen = decide (b7 = 1)) ∧
        (u.queue q).items = y.items) ∧
    (op = 4 → mine → 8 ≤ b7 → b7 ≤ 15 → recByte e 8 1 = 1 → s.ownSpindle p.toNat b6 = true →
      ∃ (t u : State), exec (.qnote p e) s = .next t ∧ did u t 0 ∧ kept u ∧ (b6, b7) ∈ (u.queue q).note) ∧
    (op = 5 → mine → recByte e 6 2 ≠ 1 → recByte e 6 2 ≤ 119 →
      ∃ (t u : State), exec (.qmsix p e) s = .next t ∧ did u t 0 ∧ kept u ∧
        u.queue q = { y with msix := if recByte e 6 2 = 0 then none else some (recByte e 6 2) }) ∧
    (op = 6 → mine → b6 ≤ 31 → b7 = 1 → (s.portRate b6).isSome = true → bitOf (s.part p.toNat).egr.toNat b6 = true → y.flush = true →
      s.testing 4 (b6 / 4) = false →
      ∃ (t u : State), exec (.qegress p e) s = .next t ∧ did u t 0 ∧ kept u ∧ u.queue q = { y with egress := some b6 }) ∧
    (op = 7 ∨ op = 8 → ∃ t : State, exec (if op = 7 then .pricking p e else .ruleAdd p e) s = .next t ∧
      t.hostReads = [⟨p.toNat, op, tag, q, recByte e 8 8⟩] ∧
      (∃ a b, t.sent = .hostRead 16 a (if op = 7 then 64 else 32) :: .hostRead p.toNat b 64 :: s.sent) ∧ (t.ring p.toNat 3).promised = (s.ring p.toNat 3).promised + 1 ∧
      t.store = s.store ∧ t.qe = s.qe ∧ kept t) ∧
    (∀ r, op = 9 → tabGet none s.qe.rules q = some r → r.part = p.toNat →
      ∃ (t u : State), exec (.ruleDel p e) s = .next t ∧ did u t 0 ∧ kept u ∧ tabGet none u.qe.rules q = none ∧
        ∀ j, j ≠ q → tabGet none u.qe.rules j = tabGet none s.qe.rules j) ∧
    (op = 10 → b7 = 0 → s.ownSpindle p.toNat b6 = true → s.oos b6 = false →
      ∃ (t u : State), exec (.l1cfg p e) s = .next t ∧ did u t 0 ∧ kept u ∧
        u.l1 (s.posOf b6) = { s.l1 (s.posOf b6) with en := BitVec.ofNat 64 (recByte e 8 8) })) ∧
    (∀ (h : HostRead) (rest : List HostRead), s.node ≠ .fault → s.hostReads = h :: rest → h.part = p.toNat →
      let hc : Half := BitVec.ofNat 16 (p.toNat + 16)
      (h.op = 7 → prPart x = p.toNat → prValid (s.prick h.index) = false → (∀ c ∈ s.liveCtxs, ctxPrick c.2 ≠ h.index) →
        h.index < s.prickCount → prickingBad x = false →
        ∃ (t u : State), exec (.hostReadCompletion hc (some x)) s = .next t ∧ t = u.ccqAnswer p.toNat 7 h.tag 0 0 ∧ u.prick h.index = x ∧
          u.hostReads = rest) ∧
      (h.op = 8 → ∀ r, ruleOf p.toNat (BitVec.ofNat 512 (fld x.toNat 0 256)) = some r → (r.kind = 0 ∨ r.kind = 2 ∨ r.kind = 5 ∨ (r.kind = 0xFE ∧ r.etype ≠ 0x88F7)) → r.vlan < 2 ^ 13 →
        (s.queue r.queue).owner = p → s.ruleShape r = true → s.ruleRing r = true → s.ruleList.length < 32768 →
        (∀ j ∈ s.ruleList, j.2.sameKey r = false) →
        ∃ (t u : State) (n : Nat), exec (.hostReadCompletion hc (some x)) s = .next t ∧ t = u.ccqAnswer p.toNat 8 h.tag 0 n ∧
          tabGet none u.qe.rules n = some r ∧ ∀ j, j ≠ n → tabGet none u.qe.rules j = tabGet none s.qe.rules j) ∧
      ∃ (t u : State), exec (.hostReadCompletion hc none) s = .next t ∧ t = u.ccqAnswer p.toNat h.op h.tag 6 0 ∧ u.store = s.store ∧ u.qe = s.qe)

/-! ## The object dictionary (15 R442, R443, 16 R473 to R480) -/

/-- R442, R443, R475, 02 Table 2-9: the mailbox is answered with the first check that fails, in the order of R475, and reads
and writes entry 0x2010.05; a busy mailbox takes nothing. -/
def Obligations.MailboxesAnswerInOrder : Prop :=
  ∀ (s : State) (f : Fn) (idx : Half) (sub : Byte) (l : List Byte) (r : DRow),
    let path := pathOf f
    let asked (c : Instr) (code : Nat) : Prop := ∃ t, exec c s = .next t ∧ answered path code t
    ((s.mailbox f).busy = true ∨ s.rst.perstLow = true → ∃ t, exec (.mailboxRead f idx sub) s = .next t ∧ t = s) ∧
    (s.serves path = true →
      (dictTop idx.toNat = 0 → asked (.mailboxRead f idx sub) 1 ∧ asked (.mailboxWrite f idx sub l) 1) ∧
      (0 < dictTop idx.toNat → dictTop idx.toNat < sub.toNat → asked (.mailboxRead f idx sub) 2 ∧ asked (.mailboxWrite f idx sub l) 2) ∧
      (f ≠ .pf → asked (.mailboxRead f 0x2010 5) 9 ∧ asked (.mailboxWrite f 0x2010 5 l) 9) ∧
      (f = .pf → dictRow idx.toNat sub.toNat = some r →
        (r.acc = .ro ∨ r.acc = .const → asked (.mailboxWrite f idx sub l) 3) ∧
        (r.acc = .wo → asked (.mailboxRead f idx sub) 4) ∧
        (r.acc = .rwp → s.node ≠ .preop → asked (.mailboxWrite f idx sub l) 5)) ∧
      (f = .pf →
        (l.length ≠ 2 → asked (.mailboxWrite f 0x2010 5 l) 7) ∧
        (l.length = 2 → natOfBytes l < 500 ∨ 995 < natOfBytes l → asked (.mailboxWrite f 0x2010 5 l) 6) ∧
        (l.length = 2 → 500 ≤ natOfBytes l → natOfBytes l ≤ 995 →
          ∃ t, exec (.mailboxWrite f 0x2010 5 l) s = .next t ∧ answered path 0 t ∧ entrySet 0x2010 5 (natOfBytes l) s t ∧ t.mem = s.mem) ∧
        (∃ t, exec (.mailboxRead f 0x2010 5) s = .next t ∧ answered path 0 t ∧ (t.mailbox f).statLen = 2 ∧
          (t.mailbox f).bytes 2 = bytesOfNat 2 (s.dget 0x2010 5) ∧ t.dict = s.dict ∧ t.mem = s.mem) ∧
        (0 < dictTop idx.toNat → ∃ t, exec (.mailboxRead f idx 0) s = .next t ∧ answered path 0 t ∧ (t.mailbox f).statLen = 1 ∧
          (t.mailbox f).bytes 1 = [BitVec.ofNat 8 (dictTop idx.toNat)])))

/-- 02 R96, 11 R351, 15 R443, 16 R472, R476, R477, R480, 17 R492, R493, R502, R503, R507, R508: the entries whose write is a
command, through a path that may write them: what each does, and the code it answers when a rule turns it away. STORE and
RESTORE_DEFAULTS start a run that answers at its end (what that leaves is in EmptyQueueTicks); the bytes a run writes spell the bank
it stores. (The model's, not the manual's: RANGE for a wrong key of ERR_CLEAR and RECORD_CLEAR is log entry 88; that a run erases
its bank at
its start, and where the bank's CRC stands, 157.) -/
def Obligations.EntriesThatAct : Prop :=
  ∀ (s : State) (path : Path) (v k : Byte) (code : Half) (key : Word) (l : List Byte) (ok : Bool) (z : Bank),
    s.serves path = true → widePath path = true →
    let c := s.selected path
    let asked (i : Instr) (a : Nat) (f : State → Prop) : Prop := ∃ t, exec i s = .next t ∧ answered path a t ∧ f t
    let slot := 0x4800 + k.toNat
    let req : Rec64 := BitVec.ofNat 512 (natOfBytes (s.dom slot 2))
    let unit := s.dget 0x6001 1
    let inst := s.dget 0x6001 2
    let p := v.toNat
    let m := s.mgmt
    let other : Bool := match m.inUse with | some x => !x.1 | none => false
    let gen : Word := (match m.bank with | some x => x.gen | none => 0) + 1
    let begins (i : Instr) (f : State → Prop) : Prop := ∃ t, exec i s = .next t ∧ f t ∧
      if path = .zmp then t.resp = .none else (t.mailbox .pf).busy = true
    let kept (t : State) : Prop := t.mgmt.bankA = m.bankA ∧ t.mgmt.bankB = m.bankB ∧ t.mgmt.storing = m.storing
    let answer : Option StoreAnswer := some (if path = .zmp then .resp else .mailbox .pf)
    (asked (.statReset path 1) 0 fun t => t.aux c = { s.aux c with cyclesMax := 0, slackMin := 0, skeins := 0, recorded := false } ∧
      ∀ j, j ≠ c → t.aux j = s.aux j) ∧
    (asked (.statReset path 0) 0 fun t => t.streams = s.streams) ∧
    (asked (.emcyAck path code) 0 fun t => t.mgmt.emcy = s.mgmt.emcy.filter fun e => e.code ≠ code.toNat) ∧
    (1 < v.toNat → (asked (.statReset path v) 6 fun t => t.streams = s.streams) ∧ (asked (.testGo path v) 6 fun t => t.rst = s.rst)) ∧
    (asked (.errClear path (BitVec.ofNat 32 keyErrClear)) 0 fun t => t.rst = { s.rst with firstV := false, next := 0, wrap := false }) ∧
    (key.toNat ≠ keyErrClear → asked (.errClear path key) 6 fun t => t.rst = s.rst) ∧
    (asked (.recordClear path (BitVec.ofNat 32 keyRecordClear)) 0 fun t => memBecomes recordBase 64 (fun _ => 0) s t ∧ t.dget 0x5F00 1 = 0) ∧
    (key.toNat ≠ keyRecordClear → asked (.recordClear path key) 6 fun t => t.mem = s.mem) ∧
    (15 < k.toNat → asked (.go path k 1) 1 fun t => t.dict = s.dict) ∧
    (k.toNat ≤ 15 →
      (s.dget slot 6 = 1 → asked (.go path k 1) 11 fun t => t.dict = s.dict) ∧
      (s.dget slot 6 = 0 → s.dom slot 2 = [] → asked (.go path k 1) 8 fun t => t.dict = s.dict) ∧
      (s.dget slot 6 = 0 → s.dom slot 2 ≠ [] →
        (recByte req 0 1 = 0 ∨ 4 < recByte req 0 1 → asked (.go path k 1) 0 fun t => t.dget slot 4 = 9 ∧ t.dget slot 5 = 0 ∧ t.store = s.store) ∧
        (path = .zmp → let r := s.anyReq (s.dget slot 1) req
          asked (.go path k 1) 0 fun t => t.dget slot 4 = r.1 ∧ t.dget slot 5 = r.2.1 ∧ t.store = r.2.2.store))) ∧
    (v.toNat ≤ 15 →
      ((s.part p).resetting = true → asked (.resetPartition path v) 11 fun t => t.parts = s.parts) ∧
      (s.node = .preop → (s.part p).resetting = false → (s.part p).mode = 0 → (s.part p).phase = 0 → (∀ e ∈ s.liveCtxs, ctxPart e.2 ≠ p) →
        asked (.resetPartition path v) 0 fun t => (t.part p).resetting = false ∧ (t.part p).mode = 0 ∧ tabGet {} t.timers p = {} ∧
          ∀ q, (s.queue q).owner.toNat = p → (t.queue q).state = .free)) ∧
    (15 < v.toNat → asked (.resetPartition path v) 6 fun t => t.parts = s.parts) ∧
    (s.node ≠ .preop → asked (.standby path) 8 fun t => t.rst = s.rst) ∧
    (s.node = .preop → s.rst.standby = false → (∀ n, n < 64 → s.hankHeldOn n = false) →
      (s.core 128).run ≠ .halted → (s.core 128).run ≠ .off → asked (.standby path) 0 fun t => t.rst.standby = true ∧ t.clock.step = 3 ∧ t.node = .preop ∧
      t.dget 0x6000 5 = 1 ∧ (∀ w, w < 144 → (t.pos w).st = 2) ∧ (∀ n, n < 4 → (t.stack n).asleep = true) ∧
      (∀ n, n < 64 → (t.hank n).req = if (s.hank n).owner = 0x1F then 2 else 1) ∧ (∀ n, n < 32 → t.dget (0x2110 + n) 5 = 0) ∧
      ∀ j, 129 ≤ j → j ≤ 131 → (t.core j).run = .off) ∧
    (s.rst.standby = true → asked (.standbyExit path) 0 fun t => t.rst.standby = false ∧ t.clock.step = s.rst.sbStep ∧ t.dget 0x6000 5 = 0 ∧
      (∀ w, w ∈ s.rst.sbPos → (t.pos w).st = 0) ∧ (∀ n, n < 4 → (t.stack n).asleep = false) ∧ ∀ j, 129 ≤ j → j ≤ 131 → t.core j = Core.init j) ∧
    (s.rst.standby = false → asked (.standbyExit path) 0 fun t => t.rst = s.rst ∧ t.clock = s.clock ∧ t.cores = s.cores) ∧
    (s.rst.testGo ≠ none → asked (.testGo path 1) 11 fun t => t.rst = s.rst) ∧
    (s.rst.testGo = none → s.testAllowed unit inst = false → asked (.testGo path 1) 8 fun t => t.rst = s.rst ∧ t.dget 0x6001 4 = 5) ∧
    (s.rst.testGo = none → s.testAllowed unit inst = true → asked (.testGo path 1) 0 fun t => t.rst.testGo = some (unit, inst) ∧
      t.rst.tests = s.rst.tests ++ [(unit, inst)] ∧ t.dget 0x6001 4 = 2 ∧ t.dget 0x6001 5 = 0) ∧
    (s.node ≠ .preop → asked (.mcodePatch path l) 5 fun t => t.mcs = s.mcs) ∧
    (s.node = .preop →
      (0 < l.length → l.length < 112 ∨ (4784 < l.length ∧ l.length ≤ 8192) → asked (.mcodePatch path l) 7 fun t => t.mcs = s.mcs) ∧
      (112 ≤ l.length → l.length ≤ 4784 → ∀ n, patchStatus deviceStepping l = some n →
        asked (.mcodePatch path l) 8 fun t => t.mcs = s.mcs ∧ t.dget 0x2030 3 = n ∧ t.doms = s.doms) ∧
      (112 ≤ l.length → l.length ≤ 4784 → patchStatus deviceStepping l = none →
        asked (.mcodePatch path l) 0 fun t => t.dom 0x2030 1 = l ∧ t.dget 0x2030 2 = (parsePatch l).id ∧ t.dget 0x2030 3 = 0 ∧
          ∀ w, w < 144 → t.mc w = if (s.pos w).st = 2 then s.mc w else patchMc l) ∧
      asked (.mcodePatch path []) 0 fun t => t.dom 0x2030 1 = [] ∧ t.dget 0x2030 2 = 0 ∧
        ∀ w, w < 144 → t.mc w = if (s.pos w).st = 2 then s.mc w else patchMc []) ∧
    (l.length = 4 → natOfBytes l = keySave →
      (m.storing.isSome = true → asked (.store path l ok) 11 kept) ∧
      (m.storing = none → s.dget 0x1200 5 < 2048 → asked (.store path l ok) 12 kept) ∧
      (m.storing = none → 2048 ≤ s.dget 0x1200 5 → begins (.store path l ok) fun t =>
        t.mgmt.storing = some { bank := some (other, ⟨gen, s.stoRecords⟩), ok := ok, answer := answer } ∧
        (other = true → t.mgmt.bankA = m.bankA ∧ t.mgmt.bankB = []) ∧ (other = false → t.mgmt.bankA = [] ∧ t.mgmt.bankB = m.bankB))) ∧
    (l.length = 4 → natOfBytes l = keyLoad →
      (m.storing.isSome = true → asked (.restoreDefaults path l) 11 kept) ∧
      (m.storing = none → s.dget 0x1200 5 < 2048 → asked (.restoreDefaults path l) 12 kept) ∧
      (m.storing = none → 2048 ≤ s.dget 0x1200 5 → begins (.restoreDefaults path l) fun t =>
        t.mgmt.storing = some { bank := none, ok := true, answer := answer } ∧ t.mgmt.bankA = [] ∧ t.mgmt.bankB = [])) ∧
    (l.length = 4 → (natOfBytes l ≠ keySave → asked (.store path l ok) 6 kept) ∧
      (natOfBytes l ≠ keyLoad → asked (.restoreDefaults path l) 6 kept)) ∧
    (l.length ≠ 4 → l.length ≤ 8192 → asked (.store path l ok) 7 kept ∧ asked (.restoreDefaults path l) 7 kept) ∧
    ((∀ e ∈ z.recs, e.1 < 2 ^ 24 ∧ e.2.length < 2 ^ 16) → Bank.ofBytes z.image = some z)

/-! ## Management (16 R456 to R472, R482, R483) -/

/-- R457, R464 to R472, R482, R483: a frame received joins the queue of requests, or is counted; requests execute and their
responses wait to be sent, a repeated one getting the stored response; emergencies and notifications; transmission at the
own opportunity. (The model's, not the manual's: a burst timer below 96 gives one frame, log entry 152; an opportunity gives one
frame while
PLCA is inactive, and what is counted of a frame that is no request, 95.) -/
def Obligations.ManagementRequestsAnswered : Prop :=
  ∀ (s : State) (src alive sub0 id b0 b1 : Byte) (seq idx0 code : Half) (off : Word) (len : Half) (pl l : List Byte) (op : Nat) (fr : MgmtFrame),
    let m := s.mgmt
    let n := src.toNat
    let q := seq.toNat
    let own := m.addr.toNat
    let v := s.dget 0x2010 5
    let isNew : Prop := ∀ x, tabGet none m.last n = some x → x.1 ≠ q
    let gets (t : State) (x : ZmpTx) : Prop := t.mgmt.txq = txPut m.txq x ∧ tabGet none t.mgmt.last n = some (q, x) ∧ t.mem = s.mem
    let rsp (o a : Nat) (p : List Byte) : ZmpTx := respTx n q o 0x2010 5 a p
    (s.zmpAlive = true →
      (m.addr ≠ 0 → n ≠ own → 1 ≤ op → op ≤ 4 → pl.length ≤ 1400 → tabGet none m.aliveRx (2 * n) = none → m.rxq.length < 16 →
        let f := zmpBytes own n q alive.toNat op idx0.toNat sub0.toNat pl
        ∃ t, exec (.zmpFrameReceive ⟨0x88B5, f, true⟩) s = .next t ∧ t.mgmt.rxq = m.rxq ++ [(n, q, op)] ∧
          tabGet none t.mgmt.aliveRx (2 * n) = some alive ∧ t.mgmt.txq = m.txq ∧ t.dict = s.dict ∧ t.mem = s.mem) ∧
      (m.addr ≠ 0 → n ≠ own → 1 ≤ op → op ≤ 4 → pl.length ≤ 1400 → tabGet none m.aliveRx (2 * n) = some alive →
        ∃ t, exec (.zmpFrameReceive ⟨0x88B5, zmpBytes own n q alive.toNat op idx0.toNat sub0.toNat pl, true⟩) s = .next t ∧ t.mgmt = m ∧
          entrySet 0x1120 2 (min (s.dget 0x1120 2 + 1) 0xFFFFFFFF) s t) ∧
      (16 ≤ l.length → l.length ≤ 1500 → l.headD 0 = 1 → beyond l 10 2 ≤ 1400 → 16 + beyond l 10 2 ≤ l.length →
        beyond l (12 + beyond l 10 2) 4 ≠ crcOf 0 (l.take (12 + beyond l 10 2)) →
        ∃ t, exec (.zmpFrameReceive ⟨0x88B5, l, true⟩) s = .next t ∧ t.mgmt = m ∧
          entrySet 0x1120 1 (min (s.dget 0x1120 1 + 1) 0xFFFFFFFF) s t) ∧
      (fr.etype ≠ 0x88B5 ∨ fr.fcsOk = false ∨ 1500 < fr.bytes.length → ∃ t, exec (.zmpFrameReceive fr) s = .next t ∧ t.mgmt = m ∧
        entrySet 0x1120 6 (min (s.dget 0x1120 6 + 1) 0xFFFFFFFF) s t)) ∧
    (s.inTurn n q 1 = false → ∃ t, exec (.read src seq 0x2010 5) s = .next t ∧ t = s) ∧
    (s.zmpAlive = true → m.addr ≠ 0 → m.txq.length < 16 → (∀ o, s.inTurn n q o = true) → isNew →
      (∃ t, exec (.read src seq 0x2010 5) s = .next t ∧ gets t (rsp 1 0 (bytesOfNat 2 v)) ∧ t.dict = s.dict) ∧
      (∃ t, exec (.blockRead src seq 0x2010 5 off len) s = .next t ∧ t.dict = s.dict ∧
        gets t (if len = 0 ∨ 1396 < len.toNat then rsp 3 7 []
          else rsp 3 0 (bytesOfNat 4 2 ++ ((bytesOfNat 2 v).drop off.toNat).take len.toNat))) ∧
      (s.node = .fault → (l.length ≤ 1400 → ∃ t, exec (.write src seq 0x2010 5 l) s = .next t ∧ gets t (rsp 2 10 []) ∧ t.dict = s.dict) ∧
        ∃ t, exec (.blockWrite src seq 0x2010 5 0 2 [b0]) s = .next t ∧ gets t (rsp 4 10 []) ∧ t.dict = s.dict) ∧
      (s.node ≠ .fault →
        (l.length = 2 → 500 ≤ natOfBytes l → natOfBytes l ≤ 995 → ∃ t, exec (.write src seq 0x2010 5 l) s = .next t ∧ gets t (rsp 2 0 []) ∧
          entrySet 0x2010 5 (natOfBytes l) s t) ∧
        (l.length = 2 → natOfBytes l < 500 ∨ 995 < natOfBytes l → ∃ t, exec (.write src seq 0x2010 5 l) s = .next t ∧ gets t (rsp 2 6 []) ∧
          t.dict = s.dict) ∧
        (∃ t, exec (.blockWrite src seq 0x2010 5 0 2 [b0]) s = .next t ∧ gets t (rsp 4 0 []) ∧
          tabGet none t.mgmt.blocks n = some ⟨0x2010, 5, 2, [b0], s.clock.cycles⟩ ∧ t.dict = s.dict) ∧
        (∀ since, tabGet none m.blocks n = some ⟨0x2010, 5, 2, [b0], since⟩ → s.clock.cycles < since + 1000000000 →
          (500 ≤ natOfBytes [b0, b1] → natOfBytes [b0, b1] ≤ 995 → ∃ t, exec (.blockWrite src seq 0x2010 5 1 2 [b1]) s = .next t ∧
            gets t (rsp 4 0 []) ∧ tabGet none t.mgmt.blocks n = none ∧ entrySet 0x2010 5 (natOfBytes [b0, b1]) s t) ∧
          (off ≠ 0 → off ≠ 1 → ∃ t, exec (.blockWrite src seq 0x2010 5 off 2 [b1]) s = .next t ∧ gets t (rsp 4 13 []) ∧
            tabGet none t.mgmt.blocks n = none ∧ t.dict = s.dict)))) ∧
    (s.zmpAlive = true → m.addr ≠ 0 → m.txq.length < 16 → (∀ o, s.inTurn n q o = true) → ∀ x, tabGet none m.last n = some (q, x) →
      (∃ t, exec (.write src seq 0x2010 5 l) s = .next t ∧ t.mgmt.txq = txPut m.txq x ∧ t.dict = s.dict) ∧
      ∃ t, exec (.read src seq 0x2010 5) s = .next t ∧ t.mgmt.txq = txPut m.txq x) ∧
    ((∀ x, tabGet none m.blocks n = some x → s.clock.cycles < x.at_ + 1000000000) → ∃ t, exec (.blockSessionTimeout src) s = .next t ∧ t = s) ∧
    (∀ x, tabGet none m.blocks n = some x → x.at_ + 1000000000 ≤ s.clock.cycles →
      ∃ t, exec (.blockSessionTimeout src) s = .next t ∧ tabGet none t.mgmt.blocks n = none ∧
      (∀ j, j ≠ n → tabGet none t.mgmt.blocks j = tabGet none m.blocks j) ∧ t.mgmt.txq = m.txq ∧ { t with mgmt := m } = s) ∧
    (s.zmpAlive = true → s.node ≠ .unaddressed → m.addr ≠ 0 → m.ackDue = none →
      (id.toNat = own → let k := if m.plca then (if s.dget 0x1100 7 < 96 then 1 else 1 + s.dget 0x1100 6) else 1
        ∃ t, exec (.transmitOpportunity id) s = .next t ∧ t.mgmt.txq = m.txq.drop k ∧
          (∃ fs : List (List Byte), fs.length = min k m.txq.length ∧ t.sent = fs.map Sent.zmp ++ s.sent) ∧ t.dict = s.dict ∧ t.mem = s.mem) ∧
      (id.toNat ≠ own → ∃ t, exec (.transmitOpportunity id) s = .next t ∧ t = s)) ∧
    (s.zmpAlive = true → s.dget 0x1100 11 ≠ 0 →
      let due (e : Emcy) : Bool := decide (e.code = code.toNat ∧ emcyTx e ∉ m.txq ∧
        ∃ u ∈ e.sent, u + 1000000 * s.dget 0x1100 11 ≤ s.clock.cycles)
      ∃ t, exec (.emcyRepeat code) s = .next t ∧ (∀ e, e ∈ m.emcy → due e = true → emcyTx e ∈ t.mgmt.txq) ∧
        (∀ x, x ∈ m.txq → x ∈ t.mgmt.txq) ∧ t.mgmt.txq.length = m.txq.length + (m.emcy.filter due).length ∧
        t.mgmt.emcy = m.emcy) ∧
    (s.dget 0x1100 11 = 0 → ∃ t, exec (.emcyRepeat code) s = .next t ∧ t = s) ∧
    (s.zmpAlive = true → m.addr ≠ 0 → m.txq.length < 16 →
      (s.dget 0x1100 9 ≠ 0 → s.beatDue = true → ∃ t, exec .heartbeat s = .next t ∧ { t with mgmt := m } = s ∧
        t.mgmt.txq = txPut m.txq { kind := 2, dst := 0, seq := 0, opcode := 5, index := 0x1100, sub := 3, payload := [] }) ∧
      (id.toNat < 16 → s.dget 0x1110 (id.toNat + 1) ≠ 0 → s.watched id.toNat ≠ tabGet [] m.seen id.toNat → s.notifyDue id.toNat = true →
        let w := s.dget 0x1110 (id.toNat + 1)
        ∃ t, exec (.notify id) s = .next t ∧ { t with mgmt := m } = s ∧ tabGet [] t.mgmt.seen id.toNat = s.watched id.toNat ∧
          t.mgmt.txq = txPut m.txq { kind := 2, dst := 0, seq := 0, opcode := 5, index := w / 256, sub := w % 256, payload := [] })) ∧
    (s.dget 0x1100 9 = 0 ∨ s.beatDue = false → ∃ t, exec .heartbeat s = .next t ∧ t = s) ∧
    (s.watched id.toNat = tabGet [] m.seen id.toNat ∨ s.notifyDue id.toNat = false → ∃ t, exec (.notify id) s = .next t ∧ t = s)

/-- Table 16-3, R456, R458 to R460, R471, Table 16-7: the NMT commands move the node from state to state; chain assignment
gives an UNADDRESSED device its address, in the time the response and the acknowledgement take at the least (the acknowledgement
behind every waiting EMERGENCY, R485); PLCA starts and stops. (The model's, not the manual's: what RESET_COMM clears and keeps is
log entry
134; the session recorded at the response, and when an acknowledgement goes out, 95.) -/
def Obligations.NodeStatesAndAssignment : Prop :=
  ∀ (s : State) (session addr : Byte) (level : Bool) (k : Nat) (q : Option Nat),
    let m := s.mgmt
    let echoes (f : List Byte) : Prop := ∀ n, q = some n → (f.drop 17).take 2 = bytesOfNat 2 n
    let quiet : Prop := s.rst.standby = false ∧ s.dget 0x1100 4 = 0 ∧
      ∀ e ∈ s.dict, ¬(0x4000 ≤ e.1 / 256 ∧ e.1 / 256 ≤ 0x47FF ∧ e.1 % 256 = 3 ∧ e.2 = 1)
    (s.zmpAlive = true → m.txq.length < 16 → s.inTurnOf 39 = true →
      (quiet → s.node = .preop ∨ s.node = .stopped → ∃ t, exec (.start .broadcast) s = .next t ∧ t.node = .operational ∧ t.mem = s.mem) ∧
      (quiet → s.node = .preop ∨ s.node = .operational → ∃ t, exec (.stop .broadcast) s = .next t ∧ t.node = .stopped ∧ t.parts = s.parts ∧
        t.store = s.store) ∧
      (quiet → s.liveCtxs = [] → s.node = .operational ∨ s.node = .stopped → ∃ t, exec (.enterPreop .broadcast) s = .next t ∧
        t.node = .preop ∧ ∀ p, p < 16 → (s.part p).phase.toNat < 2 → (t.part p).target = 0 ∧ ((t.part p).mode ≠ 0 → (t.part p).pend = true)) ∧
      (s.node = .unaddressed → (∃ t, exec (.start .broadcast) s = .next t ∧ t.node = .unaddressed) ∧
        (∃ t, exec (.stop .broadcast) s = .next t ∧ t.node = .unaddressed) ∧ ∃ t, exec (.enterPreop .broadcast) s = .next t ∧ t.node = .unaddressed) ∧
      (∃ t, exec (.resetNode .broadcast) s = .next t ∧ t.node = .init ∧ t.rst.cause = 4 ∧ t.store = [] ∧ t.parts = [] ∧ t.time = s.time ∧
        t.rst.log = s.rst.log ∧ t.rst.posFail = s.rst.posFail ∧ t.mgmt.bankA = m.bankA ∧ t.mgmt.bankB = m.bankB ∧
        ∀ a, a < 0x001800000000 → t.byte a = s.byte a) ∧
      (∃ t, exec (.resetComm .broadcast) s = .next t ∧ t.node = s.node ∧ t.mgmt.aliveRx = [] ∧ t.mgmt.last = [] ∧ t.mgmt.blocks = [] ∧
        t.mgmt.plca = false ∧ t.mgmt.session = m.session ∧ t.mgmt.txq = m.txq.filter (fun x => x.kind = 0) ∧ t.mem = s.mem ∧ t.dict = s.dict)) ∧
    (s.serves .pf = true →
      (quiet → s.node = .unaddressed → ∃ t, exec (.detach (.localWrite .pf)) s = .next t ∧ answered .pf 0 t ∧ t.node = .preop ∧
        t.mgmt.chainOut = true ∧ t.mgmt.addr = m.addr) ∧
      (s.node ≠ .unaddressed → ∃ t, exec (.detach (.localWrite .pf)) s = .next t ∧ answered .pf 10 t ∧ t.node = s.node)) ∧
    (s.zmpAlive = true → s.node = .unaddressed →
      (m.txq.length < 16 → s.inTurnOf 40 = true → m.chain s.clock.cycles = true → m.plca = true → ∃ t, exec (.assignOffer session addr) s = .next t ∧
        t.mgmt.respDue = m.respDue ++ [(s.clock.cycles, session.toNat, s.rxSeq 40)] ∧ t.node = s.node ∧ t.mgmt.addr = m.addr) ∧
      (m.chain s.clock.cycles = false → ∃ t, exec (.assignOffer session addr) s = .next t ∧ t.mgmt.respDue = m.respDue) ∧
      (∀ at_ r, m.respDue = (at_, k, q) :: r → m.plca = true → at_ + 100000 ≤ s.clock.cycles → ∃ t f, exec .assignResponse s = .next t ∧
        t.sent = .zmp f :: s.sent ∧ echoes f ∧ t.mgmt.respDue = r ∧ t.mgmt.session = some k ∧ t.mgmt.answered = true ∧ t.node = s.node) ∧
      (∀ at_ r, m.respDue = (at_, k, q) :: r → s.clock.cycles < at_ + 100000 → ∃ t, exec .assignResponse s = .next t ∧ t = s) ∧
      (m.txq.length < 16 → s.inTurnOf 72 = true → m.answered = true → m.session = some session.toNat → 1 ≤ addr.toNat → addr.toNat ≤ 31 → quiet → ∃ t, exec (.assignConfirm session addr) s = .next t ∧
        t.mgmt.addr.toNat = addr.toNat ∧ t.mgmt.src = 2 ∧ t.mgmt.ackDue = some (s.clock.cycles, s.rxSeq 72) ∧ t.mgmt.chainOut = m.chainOut ∧ t.node = .preop) ∧
      (m.answered = false ∨ m.session ≠ some session.toNat ∨ addr = 0 ∨ 31 < addr.toNat → ∃ t, exec (.assignConfirm session addr) s = .next t ∧
        t.node = s.node ∧ t.mgmt.addr = m.addr)) ∧
    (s.zmpAlive = true → m.addr ≠ 0 → m.plca = true → m.ackDue = some (k, q) →
      (0 < m.urgent → ∃ t, exec .assignAcknowledgement s = .next t ∧ t = s) ∧
      (m.urgent = 0 → s.node ≠ .unaddressed → k + 100000 ≤ s.clock.cycles → ∃ t,
        exec (.transmitOpportunity (BitVec.ofNat 8 m.addr.toNat)) s = .next t ∧ t.mgmt.ackDue = none ∧ t.mgmt.chainOut = true) ∧
      (m.urgent = 0 → k + 100000 ≤ s.clock.cycles → ∃ t f, exec .assignAcknowledgement s = .next t ∧ t.sent = .zmp f :: s.sent ∧ echoes f ∧ t.mgmt.ackDue = none ∧
        t.mgmt.chainOut = true) ∧
      (s.clock.cycles < k + 100000 → ∃ t, exec .assignAcknowledgement s = .next t ∧ t = s)) ∧
    (level = m.chainRaw → ∃ t, exec (.chainIn level) s = .next t ∧ t = s) ∧
    (level ≠ m.chainRaw → ∃ t, exec (.chainIn level) s = .next t ∧ { t with mgmt := m } = s ∧
      t.mgmt = { m with chainIn := m.chain s.clock.cycles, chainRaw := level, chainAt := s.clock.cycles } ∧
      ∀ c, t.mgmt.chain c = if s.clock.cycles + 20000 ≤ c then level else m.chain s.clock.cycles) ∧
    (s.inReset = false → ∃ t, exec .plcaBeacon s = .next t ∧ t.mgmt = { m with plca := true, beacon := s.clock.cycles } ∧
      { t with mgmt := m } = s) ∧
    (m.beacon + 4000000 ≤ s.clock.cycles → ∃ t, exec .plcaTimeout s = .next t ∧ t.mgmt = { m with plca := false } ∧ { t with mgmt := m } = s) ∧
    (s.clock.cycles < m.beacon + 4000000 → ∃ t, exec .plcaTimeout s = .next t ∧ t = s)

/-! ## Power, resets, faults and tests (17) -/

/-- Table 17-1, Table 17-2, R486 to R491, R496, R498, R501, R504, 16 R458, R462: the resets, with what each keeps; start-up
and the end of INIT, and the errors that stop them; a rail that is low while PWROK rises holds the device as a brown-out does (18
R518). (The model's, not the manual's: cause 3 for RESET_N in a brown-out hold and rail 7 as a power-on are log entry 96; VDD_IO's
reset
level, below which the fail-safe inputs read low, 158.) -/
def Obligations.ResetsAndStartup : Prop :=
  ∀ (s : State) (rail : PartId) (inp : StartupInputs),
    let hot : Prop := s.rst.tripped = true ∧ ∃ i, i < 18 ∧ releaseLevel < s.temp i
    let cleared (t : State) : Prop := t.node = .init ∧ t.rst.started = false ∧ t.store = [] ∧ t.qe.queues = [] ∧ t.parts = [] ∧
      t.cores = [] ∧ t.disps = [] ∧ t.seqrs = [] ∧ t.l1s = [] ∧ t.rings = [] ∧ t.pending = s.pending
    let aon (t : State) : Prop := cleared t ∧ t.hanks = [] ∧ t.hbms = [] ∧ t.mem = [] ∧ t.dict = [] ∧ t.time.tb = 0 ∧ t.rst.posFail = [] ∧ t.rst.log = [] ∧
      t.rst.first = none ∧ t.mgmt.bankA = s.mgmt.bankA ∧ t.mgmt.bankB = s.mgmt.bankB
    let failed (t : State) (code detail : Nat) : Prop := t.node = .fault ∧ t.rst.firstV = true ∧
      (s.rst.firstV = false → t.rst.first = some ⟨BitVec.ofNat 16 code, BitVec.ofNat 32 detail, s.time.tb, true⟩)
    let ready : Prop := s.node = .init ∧ s.rst.started = false ∧ s.rst.pwrLow = false ∧ s.rst.resetLow = false ∧ s.rst.low = 0 ∧ ¬hot
    let ioOk : Prop := s.rst.low.getLsbD 6 = false
    let locked : Prop := ∀ p, inp.pllFailed = some p → p = 7
    (s.rst.pwrLow = false → ∃ t, exec (.powerOnReset false) s = .next t ∧ aon t ∧ t.rst.cause = 1 ∧ t.rst.pwrLow = true) ∧
    (s.rst.pwrLow = true → ∃ t, exec (.powerOnReset false) s = .next t ∧ t.rst.pwrLow = true ∧ t.rst.cause = s.rst.cause ∧
      { t with rst := s.rst } = s) ∧
    (s.rst.pwrLow = false ∨ s.rst.low = 0 → ∃ t, exec (.powerOnReset true) s = .next t ∧
      t.rst = { s.rst with pwrLow := false, balls := s.rst.balls &&& 6 } ∧ { t with rst := s.rst } = s) ∧
    (∀ i : Nat, s.rst.pwrLow = true → ioOk → i < 8 → s.rst.low.getLsbD i = true → (∀ j, j < i → s.rst.low.getLsbD j = false) →
      ∃ t, exec (.powerOnReset true) s = .next t ∧ t.rst.pwrLow = false ∧ t.rst.held = true ∧ t.rst.cause = 2 ∧ t.rst.rail.toNat = i ∧
        { t with rst := s.rst } = s) ∧
    (s.rst.pwrLow = true → ∃ t, exec (.brownOut rail) s = .next t ∧ { t with rst := { t.rst with low := s.rst.low } } = s ∧
      (rail.toNat ≤ 7 → ∀ j, j < 8 → t.rst.low.getLsbD j = (s.rst.low.getLsbD j || decide (j = rail.toNat)))) ∧
    (s.rst.pwrLow = false →
      (rail.toNat ≤ 6 → ∃ t, exec (.brownOut rail) s = .next t ∧ aon t ∧ t.rst.cause = 2 ∧ t.rst.rail = rail ∧ t.rst.held = true ∧
        t.rst.low.getLsbD rail.toNat = true ∧ (rail = 6 → t.rst.pwrLow = true)) ∧
      (rail = 7 → ∃ t, exec (.brownOut rail) s = .next t ∧ aon t ∧ t.rst.cause = 1 ∧ t.rst.pwrLow = true) ∧
      (7 < rail.toNat → ∃ t, exec (.brownOut rail) s = .next t ∧ t = s)) ∧
    (s.rst.pwrLow = false → s.rst.resetLow = false → ∃ t, exec (.resetN false) s = .next t ∧ cleared t ∧ t.rst.cause = 3 ∧
      t.rst.resetLow = true ∧ t.time = s.time ∧ t.dict = [] ∧
      t.hanks = tabMap {} (fun x => { ce := x.ce, ueCount := x.ueCount, ueRow := x.ueRow, ueBgroup := x.ueBgroup, ueBank := x.ueBank }) s.hanks ∧
      (∀ k, k < 4 → t.stack k = { retired := (s.stack k).retired, asleep := true }) ∧ t.rst.log = s.rst.log ∧ t.rst.first = s.rst.first ∧
      t.rst.posFail = s.rst.posFail ∧ t.rst.granSeal = s.rst.granSeal ∧ ∀ a, a < 0x001800000000 → t.byte a = s.byte a) ∧
    (ioOk → ∃ t, exec (.resetN true) s = .next t ∧ t.rst = { s.rst with resetLow := false, balls := s.rst.balls &&& 5 } ∧
      { t with rst := s.rst } = s) ∧
    (s.rst.perstLow = false → ∃ t, exec (.perstN false) s = .next t ∧ t.rst.perstLow = true ∧ t.hostReads = [] ∧ t.mailboxes = [] ∧
      t.msix = [] ∧ t.hdms = [] ∧ t.cxlCache = [] ∧ (∀ p r, p < 16 → r < 4 → (t.ring p r).en = false) ∧ t.dget 0x2200 5 = 0 ∧
      t.dget 0x2200 6 = 0 ∧ t.dget 0x2200 7 = 0 ∧ tabGet false t.l2.pend 24 = true ∧ t.node = s.node ∧ t.mem = s.mem ∧
      t.store = s.store ∧ t.qe = s.qe) ∧
    (ioOk → ∃ t, exec (.perstN true) s = .next t ∧ t.rst = { s.rst with perstLow := false, balls := s.rst.balls &&& 3 } ∧
      { t with rst := s.rst } = s) ∧
    (ready →
      (locked → inp.stackFailed = none → inp.firmwareOk = true → ∃ t, exec (.startup inp) s = .next t ∧ t.rst.started = true ∧
        (s.mgmt.bankA = [] → s.mgmt.bankB = [] → t.node = .init ∧ t.dget 0x1200 5 = inp.flashKiB.toNat ∧ t.time.locked = true ∧
          (∀ k, k < 4 → (t.stack k).asleep = false) ∧
          (s.rst.cause ≠ 4 → t.mgmt.addr = inp.strap ∧ t.mgmt.strap = inp.strap) ∧
          (∀ g, tabGet false s.rst.granSeal g = true → ∀ i, i < 2 ^ 26 → t.byte (g * 2 ^ 26 + i) = memDflt (g * 2 ^ 26 + i)) ∧
          ∀ w, w < 144 → s.posFailed w = true → (t.pos w).st = 2)) ∧
      (locked → inp.stackFailed = none → inp.firmwareOk = false → ∃ t, exec (.startup inp) s = .next t ∧ failed t 0x3001 0 ∧
        t.rst.started = false ∧ ∀ k, k < 132 → (t.core k).run = .off) ∧
      (∀ k, locked → inp.stackFailed = some k → ∃ t, exec (.startup inp) s = .next t ∧ failed t 0x3005 k.toNat ∧ t.rst.started = false) ∧
      (∀ p, inp.pllFailed = some p → p ≠ 7 → ∃ t, exec (.startup inp) s = .next t ∧ failed t 0x3004 p.toNat ∧ t.rst.started = false ∧
        (p.toNat ≤ 1 → ∀ k, k < 132 → (t.core k).run = .off))) ∧
    (s.node ≠ .init ∨ s.rst.started = true ∨ s.rst.pwrLow = true ∨ s.rst.resetLow = true ∨ s.rst.low ≠ 0 ∨ hot →
      ∃ t, exec (.startup inp) s = .next t ∧ t = s) ∧
    (s.node = .init → s.rst.started = true → s.inReset = false →
      (s.mgmt.addr = 0 → ∃ t, exec .initEnd s = .next t ∧ t.node = .unaddressed ∧ t.qe.boot = false ∧ t.mgmt = s.mgmt) ∧
      (s.mgmt.addr ≠ 0 → s.dget 0x1100 4 = 0 → ∃ t, exec .initEnd s = .next t ∧ t.node = .preop ∧ t.qe.boot = false ∧
        t.mgmt.chainOut = true ∧ t.mgmt.addr = s.mgmt.addr)) ∧
    (s.node ≠ .init ∨ s.rst.started = false ∨ s.inReset = true → ∃ t, exec .initEnd s = .next t ∧ t = s)

/-- R91, R496, R497, R499 to R502, R504, R512: supply warnings and temperature protection, and the marks they leave on the
skeins that run; watchdogs halt their core; and the errors that end in FAULT. (The model's, not the manual's: protection engages
on one
sensor at two consecutive samples, log entry 99; a warning in a reset notes its rail as low, 158.) -/
def Obligations.SupplyTemperatureAndFatalErrors : Prop :=
  ∀ (s : State) (rail pll : SegId) (temps : List (BitVec 16)) (c : BitVec 2) (link : Byte) (st : StackId),
    let i := rail.toNat
    let rd (j : Nat) : Int := (temps.getD j 0).toInt
    let tell (t : State) (code detail : Nat) : Prop := tabGet none t.rst.log s.rst.next.toNat =
      some ⟨BitVec.ofNat 16 code, BitVec.ofNat 32 detail, s.time.tb, true⟩
    let marked (t : State) (b : BitVec 16) : Prop := ∀ k,
      (t.disp k).running = (s.disp k).running.map fun x => { x with status := x.status ||| b }
    let failed (t : State) (code detail : Nat) : Prop := t.node = .fault ∧ tell t code detail ∧ t.rst.firstV = true ∧
      (s.rst.firstV = false → t.rst.first = some ⟨BitVec.ofNat 16 code, BitVec.ofNat 32 detail, s.time.tb, true⟩)
    let stopped (t : State) : Prop := ∀ k, k < 132 → (t.core k).run = .off
    (i ≤ 6 → s.inReset = false →
      (s.rst.warn.getLsbD i = false → ∃ t, exec (.supplyWarning rail) s = .next t ∧ tell t 0x4001 i ∧ marked t sSupply ∧
        (∀ j, j < 8 → (t.rst.warn.getLsbD j = (s.rst.warn.getLsbD j || decide (j = i))) ∧ (t.rst.event.getLsbD j = (s.rst.event.getLsbD j || decide (j = i)))) ∧
        t.dget 0x5000 3 = min (s.dget 0x5000 3 + 1) 0xFFFFFFFF ∧ tabGet false t.l2.pend 1 = true ∧ t.node = s.node ∧ t.mem = s.mem) ∧
      (s.rst.warn.getLsbD i = true → s.rst.low.getLsbD i = false → (∃ t, exec (.supplyWarning rail) s = .next t ∧ t = s) ∧
        ∃ t, exec (.supplyRecovery rail) s = .next t ∧ tell t 0x4002 i ∧
          (∀ j, j < 8 → t.rst.warn.getLsbD j = (s.rst.warn.getLsbD j && !decide (j = i))) ∧ tabGet false t.l2.pend 1 = true ∧
          t.rst.holdoff = (if t.rst.warn = 0 then some (s.now + 1000000) else none) ∧
          (t.rst.warn = 0 → ∀ k, (t.disp k).supply = true → (s.disp k).idle = false) ∧ t.mem = s.mem)) ∧
    (7 ≤ i ∨ s.rst.resetLow = true ∧ s.rst.pwrLow = false ∧ s.rst.held = false → ∃ t, exec (.supplyWarning rail) s = .next t ∧ t = s) ∧
    (i ≤ 6 → s.rst.warn.getLsbD i = false → s.rst.pwrLow = true ∨ s.rst.held = true → ∃ t, exec (.supplyWarning rail) s = .next t ∧
      { t with rst := { t.rst with low := s.rst.low } } = s ∧
      ∀ j, j < 8 → t.rst.low.getLsbD j = (s.rst.low.getLsbD j || decide (j = i))) ∧
    (i ≤ 5 → s.rst.warn.getLsbD i = false → ∃ t, exec (.supplyRecovery rail) s = .next t ∧
      { t with rst := { t.rst with low := s.rst.low } } = s ∧
      ∀ j, j < 8 → t.rst.low.getLsbD j = (s.rst.low.getLsbD j && !decide (j = i))) ∧
    (s.rst.warn.getLsbD i = false → s.rst.low.getLsbD i = false → ∃ t, exec (.supplyRecovery rail) s = .next t ∧ t = s) ∧
    (∀ at_, s.rst.holdoff = some at_ →
      (at_ ≤ s.now → ∃ t, exec .holdoffEnd s = .next t ∧ t.rst = { s.rst with holdoff := none } ∧ { t with rst := s.rst } = s) ∧
      (s.now < at_ → ∃ t, exec .holdoffEnd s = .next t ∧ t = s)) ∧
    (18 ≤ temps.length → s.inReset = false → s.rst.tripped = false →
      (∀ j, j < 18 → tripLevel ≤ rd j → (∀ q, q < j → rd q < tripLevel) →
        ∃ t, exec (.temperatureSample temps) s = .next t ∧ failed t 0x3006 j ∧ stopped t ∧ t.rst.tripped = true ∧
          (∀ n, n < 32 → t.dget (0x2110 + n) 5 = 0) ∧ t.dget 0x2200 5 = 0) ∧
      ((∀ j, j < 18 → rd j < tripLevel) →
        (s.rst.prot = false → (∃ j, j < 18 ∧ engageLevel ≤ s.temp j ∧ engageLevel ≤ rd j) → ∃ t, exec (.temperatureSample temps) s = .next t ∧
          t.rst.prot = true ∧ t.rst.protEv = true ∧ marked t sThermal ∧ t.dget 0x5000 4 = min (s.dget 0x5000 4 + 1) 0xFFFFFFFF ∧
          tabGet false t.l2.pend 2 = true ∧ t.node = s.node) ∧
        (s.rst.prot = false → (∀ j, j < 18 → s.temp j < engageLevel ∨ rd j < engageLevel) → ∃ t, exec (.temperatureSample temps) s = .next t ∧
          t.rst.prot = false ∧ (∀ j, j < 18 → t.temp j = rd j) ∧ t.disps = s.disps ∧ t.l2 = s.l2) ∧
        (s.rst.prot = true → (∀ j, j < 18 → rd j ≤ releaseLevel) → ∀ c0, s.rst.cool = some c0 →
          ∃ t, exec (.temperatureSample temps) s = .next t ∧ t.rst.prot = decide (s.clock.cycles < c0 + 100000) ∧ t.rst.protEv = s.rst.protEv) ∧
        (s.rst.prot = true → (∃ j, j < 18 ∧ releaseLevel < rd j) → ∃ t, exec (.temperatureSample temps) s = .next t ∧ t.rst.prot = true ∧
          t.rst.cool = none))) ∧
    (∃ t, exec (.kick c) s = .next t ∧ tabGet 0 t.rst.kicks c.toNat = s.clock.cycles ∧
      (∀ j, j ≠ c.toNat → tabGet 0 t.rst.kicks j = tabGet 0 s.rst.kicks j) ∧ { t with rst := s.rst } = s) ∧
    ((s.core (128 + c.toNat)).run ≠ .halted → (s.core (128 + c.toNat)).run ≠ .off →
      (tabGet 0 s.rst.kicks c.toNat + 10000000 ≤ s.clock.cycles → ∃ t, exec (.watchdogExpiry c) s = .next t ∧
        t.rst.expired.getLsbD c.toNat = true ∧ (t.core (128 + c.toNat)).run = .halted ∧ tabGet false t.l2.pend (3 + c.toNat) = true ∧
        tell t 0x2006 c.toNat ∧ (1 < s.distaffRunning → t.node = s.node) ∧ (s.distaffRunning = 1 → t.node = .fault)) ∧
      (s.clock.cycles < tabGet 0 s.rst.kicks c.toNat + 10000000 → ∃ t, exec (.watchdogExpiry c) s = .next t ∧ t = s)) ∧
    (s.inReset = false →
      (pll.toNat ≤ 6 → ∃ t, exec (.pllLostLock pll) s = .next t ∧ failed t 0x3004 pll.toNat ∧ (pll.toNat ≤ 1 → stopped t) ∧
        t.time = (if pll = 0 then { s.time with locked := false } else s.time) ∧ t.mem = s.mem) ∧
      (pll = 7 → ∃ t, exec (.pllLostLock pll) s = .next t ∧ t = s) ∧
      (∃ t, exec (.dieToDieLinkFailure link) s = .next t ∧ failed t 0x3007 link.toNat ∧ t.mem = s.mem ∧ t.cores = s.cores) ∧
      (∃ t, exec (.hbmStackFailure st) s = .next t ∧ failed t 0x3005 st.toNat ∧ t.mem = s.mem ∧ t.cores = s.cores)) ∧
    (s.inReset = true → (∃ t, exec (.pllLostLock pll) s = .next t ∧ t = s) ∧ (∃ t, exec (.dieToDieLinkFailure link) s = .next t ∧ t = s) ∧
      ∃ t, exec (.hbmStackFailure st) s = .next t ∧ t = s) ∧
    (∃ t, exec .recoveredClockFailure s = .next t ∧ t.time = { s.time with fref := false } ∧ { t with time := s.time } = s)

/-- R505 to R508, R510, Tables 17-10, 17-11: the fatal record; the end of a live test, by unit; a round of live tests. (The model's
readings: what a test of a hank leaves, what a failed unit does and the order of a round are log entry 106; the places of the
contents
in a section's body 92.) -/
def Obligations.RecordsAndLiveTests : Prop :=
  ∀ (s : State) (inst : Half) (detail : Word) (pass : Bool),
    let n := inst.toNat
    let e : ErrEnt := s.rst.first.getD ⟨0, 0, 0, true⟩
    let gen := if s.headValid then (s.headField 4 4 + 1) % 2 ^ 32 else 1
    let answer (unit : Nat) (t : State) : Prop := s.rst.testGo = some (unit, n) → t.rst.testGo = none ∧
      t.dget 0x6001 4 = (if pass then 3 else 4) ∧ t.dget 0x6001 5 = if pass then 0 else detail.toNat
    (s.node = .fault → s.rst.recorded = false → 0 < s.distaffRunning → ∃ t, exec .fatalRecordWrite s = .next t ∧ t.rst.recorded = true ∧
      t.headValid = true ∧ t.headField 4 4 = gen ∧ t.headField 8 8 = e.tb.toNat ∧ t.headField 16 2 = e.code.toNat ∧ t.dget 0x5F00 1 = 1 ∧
      (∀ i, i < s.recordRest.length → i + 64 < recordSize → t.byte (recordBase + 64 + i) = s.recordRest.getD i 0) ∧
      t.dget 0x5F00 2 = gen ∧ t.dget 0x5F00 4 = e.code.toNat ∧ t.dget 0x5F00 5 = e.detail.toNat ∧
      ∀ a, a < recordBase ∨ recordBase + 19 * 2 ^ 20 ≤ a → t.byte a = s.byte a) ∧
    (s.node ≠ .fault ∨ s.rst.recorded = true ∨ s.distaffRunning = 0 → ∃ t, exec .fatalRecordWrite s = .next t ∧ t = s) ∧
    (∀ unit : Byte, s.testing unit.toNat n = false → ∃ t, exec (.liveTestEnd unit inst pass detail) s = .next t ∧ t = s) ∧
    (s.testing 0 n = true → ∃ t, exec (.liveTestEnd 0 inst pass detail) s = .next t ∧ answer 0 t ∧
      (pass = true → t.rst.tests = s.rst.tests.erase (0, n) ∧ (t.pos n).st = 0 ∧ (t.pos n).result = 1) ∧
      (pass = false → t.rst.tests = s.rst.tests.filter (fun x => x ≠ (0, n)) ∧ t.posFailed n = true ∧ (t.pos n).off = true ∧ (t.pos n).st = 2 ∧ (t.pos n).result = 2)) ∧
    (s.testing 1 n = true → ∃ t, exec (.liveTestEnd 1 inst pass detail) s = .next t ∧ t.rst.tests = s.rst.tests.erase (1, n) ∧ answer 1 t ∧
      memBecomes (hankBase n) 0x400000 (fun _ => 0) s t ∧ t.cores = s.cores) ∧
    (∀ unit : Byte, unit = 2 ∨ unit = 4 → s.testing unit.toNat n = true → ∃ t, exec (.liveTestEnd unit inst pass detail) s = .next t ∧
      t.rst.tests = s.rst.tests.erase (unit.toNat, n) ∧ answer unit.toNat t ∧ t.mem = s.mem ∧ t.cores = s.cores) ∧
    (s.testing 3 n = true → n < 128 → ∃ t, exec (.liveTestEnd 3 inst pass detail) s = .next t ∧ t.rst.tests = s.rst.tests.erase (3, n) ∧ answer 3 t ∧
      t.cores = s.cores ∧ ∀ a, 0x0017FC000000 ≤ a → t.byte a = s.byte a) ∧
    (s.testing 5 n = true → s.rst.round = false → ∃ t, exec (.liveTestEnd 5 inst pass detail) s = .next t ∧
      t.rst.tests = s.rst.tests.erase (5, n) ∧ answer 5 t ∧ t.mem = s.mem ∧
      (pass = true → t.core (128 + n) = Core.init (128 + n) ∧ tabGet 0 t.rst.kicks n = s.clock.cycles) ∧ (pass = false → t.cores = s.cores)) ∧
    (s.dget 0x6000 1 = 0 ∨ s.distaffRunning < 3 ∨ s.node = .init ∨ s.node = .fault ∨ s.rst.standby = true →
      ∃ t, exec .liveTestRound s = .next t ∧ t = s) ∧
    (s.dget 0x6000 1 ≠ 0 → 3 ≤ s.distaffRunning → s.node ≠ .init → s.node ≠ .fault → s.rst.standby = false →
      ∃ t, exec .liveTestRound s = .next t ∧ (∀ x ∈ s.rst.tests, x ∈ t.rst.tests) ∧
        (∀ j, j < 64 → s.testAllowed 1 j = true → (1, j) ∈ t.rst.tests) ∧
        (∀ h w, h < 16 → s.spareOf h = some w → s.testAllowed 0 w = true → (0, w) ∈ t.rst.tests ∧ (t.pos w).st = 4) ∧
        (s.testAllowed 5 0 = true → (5, 0) ∈ t.rst.tests ∧ (t.core 128).run = .off ∧ t.rst.round = true))

/-! ## States and time -/

/-- The memories are in the one form that equal contents have: strictly rising addresses, and no entry equal to what an
unlisted address reads as: the bytes of memory, the context store and the reserved octets. Every step keeps it. (The form is
the model's.) -/
def Obligations.StepKeepsCanonicalMemory : Prop :=
  ∀ (s t : State), Memory.wf s.mem = true → tabWf (fun _ => 0) s.store = true → tabWf (fun _ => 0) s.rsv = true → step s = .next t →
    Memory.wf t.mem = true ∧ tabWf (fun _ => 0) t.store = true ∧ tabWf (fun _ => 0) t.rsv = true

/-- What reset leaves: INIT, cause power-on, TB 0, no command waiting, nothing listed in any memory and so the canonical
form; general registers 0 (08 R266), the status of a spindle controller and of a distaff core, every stream context FREE, every
queue FREE. (What a byte of memory that nothing has written reads as is the model's choice, log entry 10.) -/
def Obligations.ResetState : Prop :=
  let s := State.reset
  s.pending = [] ∧ s.node = .init ∧ s.rst.cause = 1 ∧ s.now = 0 ∧ Memory.wf s.mem = true ∧ tabWf (fun _ => 0) s.store = true ∧
    tabWf (fun _ => 0) s.rsv = true ∧ (∀ a, s.byte a = memDflt a) ∧ (∀ c r, s.g c r = 0) ∧
    (∀ c, c < 132 → (s.cpu c).pl = if c < 128 then 1 else 3) ∧ (∀ c, c < 132 → (s.core c).run = if c < 128 then .idle else .executing) ∧
    s.liveCtxs = [] ∧ (∀ q, (s.queue q).state = .free) ∧ (∀ p, (s.part p).mode = 0) ∧ s.clock.step = 0 ∧
    (∀ h, (s.hank h).power = .on) ∧ (∀ n, tabGet false s.l2.pend n = false) ∧ ∀ p r, (s.ring p r).en = false

/-- A step with no command waiting is one TIME nanosecond (the model's choice, log entry 3): 01 R38, 02 R84, 12 R372,
R379, 14 R405, R409: TB, or the step value where a step was given, and the CORE cycles advance. Where nothing else falls due in it
(a tick of a timer channel or its start, the end of a position's reset or of a replacement, a ZMP request that no command
executes, a
Trace unit, a frame that waits to be read or one of the governor's PTP) budgets and hold-off counters fall, and the reads of the
check
unit that are due write their registers; nothing else changes, but that a running STORE or RESTORE_DEFAULTS may end: what it wrote
reads back, or it failed and the other bank stands (16 R477); a fatal error abandons it (R485). A thermal trip has stopped the CORE
clock (17 R500). While PWROK is low or a brown-out holds the device nothing moves. (The model's, not the manual's: u counts after
a good
start-up, log entry 138; in which nanosecond a STORE ends is free, 157.) -/
def Obligations.EmptyQueueTicks : Prop :=
  ∀ (s : State), s.pending = [] →
    let len := coreLen s.clock.step s.stretched
    let quiet : Prop := (∀ e ∈ s.timers, e.2.waiting = 0 ∧ ∀ y ∈ e.2.ch, y.2.fell = false) ∧ (∀ e ∈ s.rst.pos, e.2.due = none) ∧
      (∀ e ∈ s.rst.spare, e.2 = none) ∧ s.mgmt.rxq = [] ∧ s.traceOut = [] ∧ (s.dget 0x2140 1 = 0 ∨ s.node = .fault) ∧
      ∀ e ∈ s.egress, ∀ f ∈ e.2.timed ++ e.2.late, f.src = none
    let banks (t : State) (a b : List Byte) : Prop := t.mgmt.bankA = a ∧ t.mgmt.bankB = b
    (s.rst.pwrLow = true ∨ s.rst.held = true → step s = .next s) ∧
    (s.rst.pwrLow = false → s.rst.held = false → ∃ (t : State) (n : Nat), step s = .next t ∧
      t.time.tb = (if s.time.stepping then s.time.setHi ++ s.time.setLo else s.time.tb + 1) ∧ t.clock.cycles = s.clock.cycles + 1 ∧
      (s.rst.tripped = false → n * len + t.clock.phase = min s.clock.phase (len - 1) + 24 ∧ t.clock.phase < len) ∧
      (s.rst.tripped = true → n = 0 ∧ t.clock.phase = s.clock.phase) ∧
      t.clock.u = (if s.rst.started then s.clock.u + n else s.clock.u) ∧
      (quiet → s.mgmt.storing = none →
        (∀ k x, (s.disp k).running = some x →
          (t.disp k).running = some (if (s.disp k).ending = true ∧ s.skeinTraces k = false then x
            else { x with budget := x.budget - n, past := x.past + (n - x.budget), cycles := x.cycles + n })) ∧
        ((∀ e ∈ s.cores, ∀ r ∈ e.2.results, r.due = none) → t.cores = s.cores) ∧
        ((s.cores.map Prod.fst).Nodup → ∀ k, t.core k = (s.core k).landCp2 t.clock.u) ∧
        (∀ k, (s.disp k).running = none → (t.disp k).running = none) ∧
        (∀ w g, n < tabGet 0 (s.l1 w).remain g → tabGet 0 (t.l1 w).remain g = tabGet 0 (s.l1 w).remain g - n) ∧
        (∀ w g, (s.l1s.map Prod.fst).Nodup → ((s.l1 w).remain.map Prod.fst).Nodup → tabGet 0 (s.l1 w).remain g ≤ n →
          tabGet 0 (t.l1 w).remain g = 0) ∧
        (∀ w, (s.l1s.map Prod.fst).Nodup → (t.l1 w).pend = (s.l1 w).pend) ∧
        (∀ g, 1 < tabGet 0 s.l2.remain g → tabGet 0 t.l2.remain g = tabGet 0 s.l2.remain g - 1) ∧ t.l2.pend = s.l2.pend ∧
        (s.time.slewing = false → s.time.stepping = false → { t.time with tb := s.time.tb } = s.time) ∧
        { t with clock := s.clock, time := s.time, disps := s.disps, cores := s.cores, l1s := s.l1s, l2 := s.l2 } = s) ∧
      (quiet → ∀ x, s.mgmt.storing = some x →
        (s.node = .fault → t.mgmt.storing = none ∧ banks t s.mgmt.bankA s.mgmt.bankB) ∧
        (s.node ≠ .fault →
          (t.mgmt.storing = some x ∧ banks t s.mgmt.bankA s.mgmt.bankB) ∨
          (t.mgmt.storing = none ∧ tabGet false t.l2.pend 26 = true ∧ t.mem = s.mem ∧
            (x.ok = true → t.dict = s.dict ∧
              (∀ z, x.bank = some (false, z) → banks t z.image s.mgmt.bankB) ∧ (∀ z, x.bank = some (true, z) → banks t s.mgmt.bankA z.image)) ∧
            (x.ok = false ∨ x.bank = none → banks t s.mgmt.bankA s.mgmt.bankB) ∧
            (x.answer = some .resp → answered .zmp (if x.ok then 0 else 12) t) ∧
            (x.answer = some (.mailbox .pf) → (s.mailbox .pf).busy = true → answered .pf (if x.ok then 0 else 12) t)))))
end

