-- ==== Sys2Proof/Laws/Tab.lean ====
section
/-! SUPPORT. The laws of sparse tables: a read after a write, and the canonical form, which every write keeps. -/

namespace Sys2Proof.Machine

theorem tabGet_tabDel {α : Type} (d : α) (t : Tab α) (k j : Nat) :
    tabGet d (tabDel t k) j = if j = k then d else tabGet d t j := by
  induction t with
  | nil => simp [tabDel, tabGet]
  | cons e r ih =>
    obtain ⟨i, v⟩ := e
    simp only [tabDel, tabGet] at ih ⊢
    by_cases hi : i = k
    · subst hi
      simp only [ne_eq, not_true_eq_false, decide_false, Bool.false_eq_true, not_false_eq_true, List.filter_cons_of_neg, ih]
      by_cases hj : j = i
      · simp [hj]
      · simp [hj, Ne.symm hj]
    · rw [List.filter_cons_of_pos (by simpa using hi)]
      simp only [tabGet, ih]
      by_cases hj : i = j
      · subst hj; simp [hi]
      · simp [hj]

theorem tabGet_tabIns {α : Type} (d : α) (t : Tab α) (k j : Nat) (v : α) :
    tabGet d (tabIns t k v) j = if j = k then v else tabGet d t j := by
  induction t with
  | nil => simp [tabIns, tabGet, eq_comm]
  | cons e r ih =>
    obtain ⟨i, w⟩ := e
    simp only [tabIns]
    split
    · rename_i hik
      subst hik
      by_cases hj : j = i
      · simp [tabGet, hj]
      · simp [tabGet, hj, Ne.symm hj]
    · split
      · by_cases hj : j = k
        · simp [tabGet, hj]
        · simp [tabGet, hj, Ne.symm hj]
      · simp only [tabGet, ih]
        by_cases hj : i = j
        · subst hj; simp [*]
        · simp [hj]

/-- A read after a write: the written value at the written key, the old one at every other. -/
theorem tabGet_tabSet {α : Type} [DecidableEq α] (d : α) (t : Tab α) (k j : Nat) (v : α) :
    tabGet d (tabSet d t k v) j = if j = k then v else tabGet d t j := by
  unfold tabSet
  split
  · subst_vars; exact tabGet_tabDel ..
  · exact tabGet_tabIns ..

@[simp] theorem tabGet_tabSet_same {α : Type} [DecidableEq α] (d : α) (t : Tab α) (k : Nat) (v : α) :
    tabGet d (tabSet d t k v) k = v := by simp [tabGet_tabSet]

/-- Whatever default the writer and the reader hold the key to, the other keys are left alone. -/
theorem tabGet_tabSet_other {α : Type} [DecidableEq α] (d e : α) (t : Tab α) {k j : Nat} (v : α) (h : j ≠ k) :
    tabGet d (tabSet e t k v) j = tabGet d t j := by
  unfold tabSet
  split
  · rw [tabGet_tabDel, if_neg h]
  · rw [tabGet_tabIns, if_neg h]

/-! ## The canonical form -/

theorem tabWfAbove_cons {α : Type} [DecidableEq α] (dk : Nat → α) (b : Option Nat) (j : Nat) (v : α) (r : Tab α) :
    tabWfAbove dk b ((j, v) :: r) = true ↔ (∀ m, b = some m → m < j) ∧ v ≠ dk j ∧ tabWfAbove dk (some j) r = true := by
  cases b <;> simp [tabWfAbove, and_assoc]

theorem tabWfAbove_mono {α : Type} [DecidableEq α] (dk : Nat → α) (t : Tab α) (b : Option Nat) (m : Nat)
    (hb : ∀ x, b = some x → x ≤ m) (h : tabWfAbove dk (some m) t = true) : tabWfAbove dk b t = true := by
  cases t with
  | nil => rfl
  | cons e r =>
    rw [tabWfAbove_cons] at h ⊢
    exact ⟨fun x hx => Nat.lt_of_le_of_lt (hb x hx) (h.1 m rfl), h.2⟩

/-- Removing entries keeps the form. -/
theorem tabWfAbove_filter {α : Type} [DecidableEq α] (dk : Nat → α) (p : Nat × α → Bool) (t : Tab α) (b : Option Nat)
    (h : tabWfAbove dk b t = true) : tabWfAbove dk b (t.filter p) = true := by
  induction t generalizing b with
  | nil => rfl
  | cons e r ih =>
    rw [tabWfAbove_cons] at h
    by_cases hp : p e
    · rw [List.filter_cons_of_pos hp, tabWfAbove_cons]
      exact ⟨h.1, h.2.1, ih _ h.2.2⟩
    · rw [List.filter_cons_of_neg hp]
      exact ih _ (tabWfAbove_mono dk r b e.1 (fun x hx => Nat.le_of_lt (h.1 x hx)) h.2.2)

theorem tabWf_filter {α : Type} [DecidableEq α] (dk : Nat → α) (p : Nat × α → Bool) (t : Tab α) (h : tabWf dk t = true) :
    tabWf dk (t.filter p) = true := tabWfAbove_filter dk p t none h

theorem tabWfAbove_ins {α : Type} [DecidableEq α] (dk : Nat → α) (t : Tab α) (b : Option Nat) (k : Nat) (v : α)
    (hv : v ≠ dk k) (hb : ∀ x, b = some x → x < k) (h : tabWfAbove dk b t = true) :
    tabWfAbove dk b (tabIns t k v) = true := by
  induction t generalizing b with
  | nil => rw [tabIns, tabWfAbove_cons]; exact ⟨hb, hv, rfl⟩
  | cons e r ih =>
    rw [tabWfAbove_cons] at h
    simp only [tabIns]
    split
    · rename_i hk
      subst hk
      rw [tabWfAbove_cons]
      exact ⟨hb, hv, h.2.2⟩
    · split
      · rename_i hk
        rw [tabWfAbove_cons, tabWfAbove_cons]
        exact ⟨hb, hv, fun m hm => by cases hm; exact hk, h.2⟩
      · rw [tabWfAbove_cons]
        refine ⟨h.1, h.2.1, ih _ (fun x hx => ?_) h.2.2⟩
        cases hx; omega

/-- A write of key k, with that key's default, keeps the form. -/
theorem tabWf_tabSet {α : Type} [DecidableEq α] (dk : Nat → α) (t : Tab α) (k : Nat) (v : α) (h : tabWf dk t = true) :
    tabWf dk (tabSet (dk k) t k v) = true := by
  unfold tabSet
  split
  · exact tabWf_filter dk _ t h
  · exact tabWfAbove_ins dk t none k v ‹_› (fun _ hx => nomatch hx) h

end Sys2Proof.Machine
end

