-- ==== Sys2Proof/Laws/State.lean ====
section
/-! SUPPORT. What each named write of State leaves alone, field by field, and what the read of a table gives after the
write of one of its entries. -/

namespace Sys2Proof.Machine
open Sys2Proof

/-! ### setCore -/

@[simp] theorem State.setCore_pending (s : State) (k : Nat) (c : Core) : (s.setCore k c).pending = s.pending := rfl
@[simp] theorem State.setCore_clock (s : State) (k : Nat) (c : Core) : (s.setCore k c).clock = s.clock := rfl
@[simp] theorem State.setCore_time (s : State) (k : Nat) (c : Core) : (s.setCore k c).time = s.time := rfl
@[simp] theorem State.setCore_seqrs (s : State) (k : Nat) (c : Core) : (s.setCore k c).seqrs = s.seqrs := rfl
@[simp] theorem State.setCore_checks (s : State) (k : Nat) (c : Core) : (s.setCore k c).checks = s.checks := rfl
@[simp] theorem State.setCore_checkCtls (s : State) (k : Nat) (c : Core) : (s.setCore k c).checkCtls = s.checkCtls := rfl
@[simp] theorem State.setCore_disps (s : State) (k : Nat) (c : Core) : (s.setCore k c).disps = s.disps := rfl
@[simp] theorem State.setCore_l1s (s : State) (k : Nat) (c : Core) : (s.setCore k c).l1s = s.l1s := rfl
@[simp] theorem State.setCore_l2 (s : State) (k : Nat) (c : Core) : (s.setCore k c).l2 = s.l2 := rfl
@[simp] theorem State.setCore_msix (s : State) (k : Nat) (c : Core) : (s.setCore k c).msix = s.msix := rfl
@[simp] theorem State.setCore_msixFns (s : State) (k : Nat) (c : Core) : (s.setCore k c).msixFns = s.msixFns := rfl
@[simp] theorem State.setCore_mcs (s : State) (k : Nat) (c : Core) : (s.setCore k c).mcs = s.mcs := rfl
@[simp] theorem State.setCore_store (s : State) (k : Nat) (c : Core) : (s.setCore k c).store = s.store := rfl
@[simp] theorem State.setCore_streams (s : State) (k : Nat) (c : Core) : (s.setCore k c).streams = s.streams := rfl
@[simp] theorem State.setCore_qe (s : State) (k : Nat) (c : Core) : (s.setCore k c).qe = s.qe := rfl
@[simp] theorem State.setCore_mem (s : State) (k : Nat) (c : Core) : (s.setCore k c).mem = s.mem := rfl
@[simp] theorem State.setCore_hanks (s : State) (k : Nat) (c : Core) : (s.setCore k c).hanks = s.hanks := rfl
@[simp] theorem State.setCore_hbms (s : State) (k : Nat) (c : Core) : (s.setCore k c).hbms = s.hbms := rfl
@[simp] theorem State.setCore_rsv (s : State) (k : Nat) (c : Core) : (s.setCore k c).rsv = s.rsv := rfl
@[simp] theorem State.setCore_locks (s : State) (k : Nat) (c : Core) : (s.setCore k c).locks = s.locks := rfl
@[simp] theorem State.setCore_parts (s : State) (k : Nat) (c : Core) : (s.setCore k c).parts = s.parts := rfl
@[simp] theorem State.setCore_granOwn (s : State) (k : Nat) (c : Core) : (s.setCore k c).granOwn = s.granOwn := rfl
@[simp] theorem State.setCore_granNext (s : State) (k : Nat) (c : Core) : (s.setCore k c).granNext = s.granNext := rfl
@[simp] theorem State.setCore_posMap (s : State) (k : Nat) (c : Core) : (s.setCore k c).posMap = s.posMap := rfl
@[simp] theorem State.setCore_rings (s : State) (k : Nat) (c : Core) : (s.setCore k c).rings = s.rings := rfl
@[simp] theorem State.setCore_sent (s : State) (k : Nat) (c : Core) : (s.setCore k c).sent = s.sent := rfl
@[simp] theorem State.setCore_resp (s : State) (k : Nat) (c : Core) : (s.setCore k c).resp = s.resp := rfl
@[simp] theorem State.setCore_node (s : State) (k : Nat) (c : Core) : (s.setCore k c).node = s.node := rfl
@[simp] theorem State.setCore_hbmReqs (s : State) (k : Nat) (c : Core) : (s.setCore k c).hbmReqs = s.hbmReqs := rfl
@[simp] theorem State.setCore_traceOut (s : State) (k : Nat) (c : Core) : (s.setCore k c).traceOut = s.traceOut := rfl
@[simp] theorem State.setCore_dict (s : State) (k : Nat) (c : Core) : (s.setCore k c).dict = s.dict := rfl
@[simp] theorem State.setCore_doms (s : State) (k : Nat) (c : Core) : (s.setCore k c).doms = s.doms := rfl
@[simp] theorem State.setCore_selects (s : State) (k : Nat) (c : Core) : (s.setCore k c).selects = s.selects := rfl
@[simp] theorem State.setCore_prickUnits (s : State) (k : Nat) (c : Core) : (s.setCore k c).prickUnits = s.prickUnits := rfl
@[simp] theorem State.setCore_cards (s : State) (k : Nat) (c : Core) : (s.setCore k c).cards = s.cards := rfl
@[simp] theorem State.setCore_shuttles (s : State) (k : Nat) (c : Core) : (s.setCore k c).shuttles = s.shuttles := rfl
@[simp] theorem State.setCore_egress (s : State) (k : Nat) (c : Core) : (s.setCore k c).egress = s.egress := rfl
@[simp] theorem State.setCore_timers (s : State) (k : Nat) (c : Core) : (s.setCore k c).timers = s.timers := rfl
@[simp] theorem State.setCore_mailboxes (s : State) (k : Nat) (c : Core) : (s.setCore k c).mailboxes = s.mailboxes := rfl
@[simp] theorem State.setCore_hostReads (s : State) (k : Nat) (c : Core) : (s.setCore k c).hostReads = s.hostReads := rfl
@[simp] theorem State.setCore_hdms (s : State) (k : Nat) (c : Core) : (s.setCore k c).hdms = s.hdms := rfl
@[simp] theorem State.setCore_cxlCache (s : State) (k : Nat) (c : Core) : (s.setCore k c).cxlCache = s.cxlCache := rfl
@[simp] theorem State.setCore_ats (s : State) (k : Nat) (c : Core) : (s.setCore k c).ats = s.ats := rfl
@[simp] theorem State.setCore_aer (s : State) (k : Nat) (c : Core) : (s.setCore k c).aer = s.aer := rfl
@[simp] theorem State.setCore_mgmt (s : State) (k : Nat) (c : Core) : (s.setCore k c).mgmt = s.mgmt := rfl
@[simp] theorem State.setCore_rst (s : State) (k : Nat) (c : Core) : (s.setCore k c).rst = s.rst := rfl

/-! ### setSeqr -/

@[simp] theorem State.setSeqr_pending (s : State) (k : Nat) (q : Seqr) : (s.setSeqr k q).pending = s.pending := rfl
@[simp] theorem State.setSeqr_clock (s : State) (k : Nat) (q : Seqr) : (s.setSeqr k q).clock = s.clock := rfl
@[simp] theorem State.setSeqr_time (s : State) (k : Nat) (q : Seqr) : (s.setSeqr k q).time = s.time := rfl
@[simp] theorem State.setSeqr_cores (s : State) (k : Nat) (q : Seqr) : (s.setSeqr k q).cores = s.cores := rfl
@[simp] theorem State.setSeqr_checks (s : State) (k : Nat) (q : Seqr) : (s.setSeqr k q).checks = s.checks := rfl
@[simp] theorem State.setSeqr_checkCtls (s : State) (k : Nat) (q : Seqr) : (s.setSeqr k q).checkCtls = s.checkCtls := rfl
@[simp] theorem State.setSeqr_disps (s : State) (k : Nat) (q : Seqr) : (s.setSeqr k q).disps = s.disps := rfl
@[simp] theorem State.setSeqr_l1s (s : State) (k : Nat) (q : Seqr) : (s.setSeqr k q).l1s = s.l1s := rfl
@[simp] theorem State.setSeqr_l2 (s : State) (k : Nat) (q : Seqr) : (s.setSeqr k q).l2 = s.l2 := rfl
@[simp] theorem State.setSeqr_msix (s : State) (k : Nat) (q : Seqr) : (s.setSeqr k q).msix = s.msix := rfl
@[simp] theorem State.setSeqr_msixFns (s : State) (k : Nat) (q : Seqr) : (s.setSeqr k q).msixFns = s.msixFns := rfl
@[simp] theorem State.setSeqr_mcs (s : State) (k : Nat) (q : Seqr) : (s.setSeqr k q).mcs = s.mcs := rfl
@[simp] theorem State.setSeqr_store (s : State) (k : Nat) (q : Seqr) : (s.setSeqr k q).store = s.store := rfl
@[simp] theorem State.setSeqr_streams (s : State) (k : Nat) (q : Seqr) : (s.setSeqr k q).streams = s.streams := rfl
@[simp] theorem State.setSeqr_qe (s : State) (k : Nat) (q : Seqr) : (s.setSeqr k q).qe = s.qe := rfl
@[simp] theorem State.setSeqr_mem (s : State) (k : Nat) (q : Seqr) : (s.setSeqr k q).mem = s.mem := rfl
@[simp] theorem State.setSeqr_hanks (s : State) (k : Nat) (q : Seqr) : (s.setSeqr k q).hanks = s.hanks := rfl
@[simp] theorem State.setSeqr_hbms (s : State) (k : Nat) (q : Seqr) : (s.setSeqr k q).hbms = s.hbms := rfl
@[simp] theorem State.setSeqr_rsv (s : State) (k : Nat) (q : Seqr) : (s.setSeqr k q).rsv = s.rsv := rfl
@[simp] theorem State.setSeqr_locks (s : State) (k : Nat) (q : Seqr) : (s.setSeqr k q).locks = s.locks := rfl
@[simp] theorem State.setSeqr_parts (s : State) (k : Nat) (q : Seqr) : (s.setSeqr k q).parts = s.parts := rfl
@[simp] theorem State.setSeqr_granOwn (s : State) (k : Nat) (q : Seqr) : (s.setSeqr k q).granOwn = s.granOwn := rfl
@[simp] theorem State.setSeqr_granNext (s : State) (k : Nat) (q : Seqr) : (s.setSeqr k q).granNext = s.granNext := rfl
@[simp] theorem State.setSeqr_posMap (s : State) (k : Nat) (q : Seqr) : (s.setSeqr k q).posMap = s.posMap := rfl
@[simp] theorem State.setSeqr_rings (s : State) (k : Nat) (q : Seqr) : (s.setSeqr k q).rings = s.rings := rfl
@[simp] theorem State.setSeqr_sent (s : State) (k : Nat) (q : Seqr) : (s.setSeqr k q).sent = s.sent := rfl
@[simp] theorem State.setSeqr_resp (s : State) (k : Nat) (q : Seqr) : (s.setSeqr k q).resp = s.resp := rfl
@[simp] theorem State.setSeqr_node (s : State) (k : Nat) (q : Seqr) : (s.setSeqr k q).node = s.node := rfl
@[simp] theorem State.setSeqr_hbmReqs (s : State) (k : Nat) (q : Seqr) : (s.setSeqr k q).hbmReqs = s.hbmReqs := rfl
@[simp] theorem State.setSeqr_traceOut (s : State) (k : Nat) (q : Seqr) : (s.setSeqr k q).traceOut = s.traceOut := rfl
@[simp] theorem State.setSeqr_dict (s : State) (k : Nat) (q : Seqr) : (s.setSeqr k q).dict = s.dict := rfl
@[simp] theorem State.setSeqr_doms (s : State) (k : Nat) (q : Seqr) : (s.setSeqr k q).doms = s.doms := rfl
@[simp] theorem State.setSeqr_selects (s : State) (k : Nat) (q : Seqr) : (s.setSeqr k q).selects = s.selects := rfl
@[simp] theorem State.setSeqr_prickUnits (s : State) (k : Nat) (q : Seqr) : (s.setSeqr k q).prickUnits = s.prickUnits := rfl
@[simp] theorem State.setSeqr_cards (s : State) (k : Nat) (q : Seqr) : (s.setSeqr k q).cards = s.cards := rfl
@[simp] theorem State.setSeqr_shuttles (s : State) (k : Nat) (q : Seqr) : (s.setSeqr k q).shuttles = s.shuttles := rfl
@[simp] theorem State.setSeqr_egress (s : State) (k : Nat) (q : Seqr) : (s.setSeqr k q).egress = s.egress := rfl
@[simp] theorem State.setSeqr_timers (s : State) (k : Nat) (q : Seqr) : (s.setSeqr k q).timers = s.timers := rfl
@[simp] theorem State.setSeqr_mailboxes (s : State) (k : Nat) (q : Seqr) : (s.setSeqr k q).mailboxes = s.mailboxes := rfl
@[simp] theorem State.setSeqr_hostReads (s : State) (k : Nat) (q : Seqr) : (s.setSeqr k q).hostReads = s.hostReads := rfl
@[simp] theorem State.setSeqr_hdms (s : State) (k : Nat) (q : Seqr) : (s.setSeqr k q).hdms = s.hdms := rfl
@[simp] theorem State.setSeqr_cxlCache (s : State) (k : Nat) (q : Seqr) : (s.setSeqr k q).cxlCache = s.cxlCache := rfl
@[simp] theorem State.setSeqr_ats (s : State) (k : Nat) (q : Seqr) : (s.setSeqr k q).ats = s.ats := rfl
@[simp] theorem State.setSeqr_aer (s : State) (k : Nat) (q : Seqr) : (s.setSeqr k q).aer = s.aer := rfl
@[simp] theorem State.setSeqr_mgmt (s : State) (k : Nat) (q : Seqr) : (s.setSeqr k q).mgmt = s.mgmt := rfl
@[simp] theorem State.setSeqr_rst (s : State) (k : Nat) (q : Seqr) : (s.setSeqr k q).rst = s.rst := rfl

/-! ### setCheck -/

@[simp] theorem State.setCheck_pending (s : State) (k : Nat) (c : Check) : (s.setCheck k c).pending = s.pending := rfl
@[simp] theorem State.setCheck_clock (s : State) (k : Nat) (c : Check) : (s.setCheck k c).clock = s.clock := rfl
@[simp] theorem State.setCheck_time (s : State) (k : Nat) (c : Check) : (s.setCheck k c).time = s.time := rfl
@[simp] theorem State.setCheck_cores (s : State) (k : Nat) (c : Check) : (s.setCheck k c).cores = s.cores := rfl
@[simp] theorem State.setCheck_seqrs (s : State) (k : Nat) (c : Check) : (s.setCheck k c).seqrs = s.seqrs := rfl
@[simp] theorem State.setCheck_checkCtls (s : State) (k : Nat) (c : Check) : (s.setCheck k c).checkCtls = s.checkCtls := rfl
@[simp] theorem State.setCheck_disps (s : State) (k : Nat) (c : Check) : (s.setCheck k c).disps = s.disps := rfl
@[simp] theorem State.setCheck_l1s (s : State) (k : Nat) (c : Check) : (s.setCheck k c).l1s = s.l1s := rfl
@[simp] theorem State.setCheck_l2 (s : State) (k : Nat) (c : Check) : (s.setCheck k c).l2 = s.l2 := rfl
@[simp] theorem State.setCheck_msix (s : State) (k : Nat) (c : Check) : (s.setCheck k c).msix = s.msix := rfl
@[simp] theorem State.setCheck_msixFns (s : State) (k : Nat) (c : Check) : (s.setCheck k c).msixFns = s.msixFns := rfl
@[simp] theorem State.setCheck_mcs (s : State) (k : Nat) (c : Check) : (s.setCheck k c).mcs = s.mcs := rfl
@[simp] theorem State.setCheck_store (s : State) (k : Nat) (c : Check) : (s.setCheck k c).store = s.store := rfl
@[simp] theorem State.setCheck_streams (s : State) (k : Nat) (c : Check) : (s.setCheck k c).streams = s.streams := rfl
@[simp] theorem State.setCheck_qe (s : State) (k : Nat) (c : Check) : (s.setCheck k c).qe = s.qe := rfl
@[simp] theorem State.setCheck_mem (s : State) (k : Nat) (c : Check) : (s.setCheck k c).mem = s.mem := rfl
@[simp] theorem State.setCheck_hanks (s : State) (k : Nat) (c : Check) : (s.setCheck k c).hanks = s.hanks := rfl
@[simp] theorem State.setCheck_hbms (s : State) (k : Nat) (c : Check) : (s.setCheck k c).hbms = s.hbms := rfl
@[simp] theorem State.setCheck_rsv (s : State) (k : Nat) (c : Check) : (s.setCheck k c).rsv = s.rsv := rfl
@[simp] theorem State.setCheck_locks (s : State) (k : Nat) (c : Check) : (s.setCheck k c).locks = s.locks := rfl
@[simp] theorem State.setCheck_parts (s : State) (k : Nat) (c : Check) : (s.setCheck k c).parts = s.parts := rfl
@[simp] theorem State.setCheck_granOwn (s : State) (k : Nat) (c : Check) : (s.setCheck k c).granOwn = s.granOwn := rfl
@[simp] theorem State.setCheck_granNext (s : State) (k : Nat) (c : Check) : (s.setCheck k c).granNext = s.granNext := rfl
@[simp] theorem State.setCheck_posMap (s : State) (k : Nat) (c : Check) : (s.setCheck k c).posMap = s.posMap := rfl
@[simp] theorem State.setCheck_rings (s : State) (k : Nat) (c : Check) : (s.setCheck k c).rings = s.rings := rfl
@[simp] theorem State.setCheck_sent (s : State) (k : Nat) (c : Check) : (s.setCheck k c).sent = s.sent := rfl
@[simp] theorem State.setCheck_resp (s : State) (k : Nat) (c : Check) : (s.setCheck k c).resp = s.resp := rfl
@[simp] theorem State.setCheck_node (s : State) (k : Nat) (c : Check) : (s.setCheck k c).node = s.node := rfl
@[simp] theorem State.setCheck_hbmReqs (s : State) (k : Nat) (c : Check) : (s.setCheck k c).hbmReqs = s.hbmReqs := rfl
@[simp] theorem State.setCheck_traceOut (s : State) (k : Nat) (c : Check) : (s.setCheck k c).traceOut = s.traceOut := rfl
@[simp] theorem State.setCheck_dict (s : State) (k : Nat) (c : Check) : (s.setCheck k c).dict = s.dict := rfl
@[simp] theorem State.setCheck_doms (s : State) (k : Nat) (c : Check) : (s.setCheck k c).doms = s.doms := rfl
@[simp] theorem State.setCheck_selects (s : State) (k : Nat) (c : Check) : (s.setCheck k c).selects = s.selects := rfl
@[simp] theorem State.setCheck_prickUnits (s : State) (k : Nat) (c : Check) : (s.setCheck k c).prickUnits = s.prickUnits := rfl
@[simp] theorem State.setCheck_cards (s : State) (k : Nat) (c : Check) : (s.setCheck k c).cards = s.cards := rfl
@[simp] theorem State.setCheck_shuttles (s : State) (k : Nat) (c : Check) : (s.setCheck k c).shuttles = s.shuttles := rfl
@[simp] theorem State.setCheck_egress (s : State) (k : Nat) (c : Check) : (s.setCheck k c).egress = s.egress := rfl
@[simp] theorem State.setCheck_timers (s : State) (k : Nat) (c : Check) : (s.setCheck k c).timers = s.timers := rfl
@[simp] theorem State.setCheck_mailboxes (s : State) (k : Nat) (c : Check) : (s.setCheck k c).mailboxes = s.mailboxes := rfl
@[simp] theorem State.setCheck_hostReads (s : State) (k : Nat) (c : Check) : (s.setCheck k c).hostReads = s.hostReads := rfl
@[simp] theorem State.setCheck_hdms (s : State) (k : Nat) (c : Check) : (s.setCheck k c).hdms = s.hdms := rfl
@[simp] theorem State.setCheck_cxlCache (s : State) (k : Nat) (c : Check) : (s.setCheck k c).cxlCache = s.cxlCache := rfl
@[simp] theorem State.setCheck_ats (s : State) (k : Nat) (c : Check) : (s.setCheck k c).ats = s.ats := rfl
@[simp] theorem State.setCheck_aer (s : State) (k : Nat) (c : Check) : (s.setCheck k c).aer = s.aer := rfl
@[simp] theorem State.setCheck_mgmt (s : State) (k : Nat) (c : Check) : (s.setCheck k c).mgmt = s.mgmt := rfl
@[simp] theorem State.setCheck_rst (s : State) (k : Nat) (c : Check) : (s.setCheck k c).rst = s.rst := rfl

/-! ### setCheckCtl -/

@[simp] theorem State.setCheckCtl_pending (s : State) (k : Nat) (c : CheckCtl) : (s.setCheckCtl k c).pending = s.pending := rfl
@[simp] theorem State.setCheckCtl_clock (s : State) (k : Nat) (c : CheckCtl) : (s.setCheckCtl k c).clock = s.clock := rfl
@[simp] theorem State.setCheckCtl_time (s : State) (k : Nat) (c : CheckCtl) : (s.setCheckCtl k c).time = s.time := rfl
@[simp] theorem State.setCheckCtl_cores (s : State) (k : Nat) (c : CheckCtl) : (s.setCheckCtl k c).cores = s.cores := rfl
@[simp] theorem State.setCheckCtl_seqrs (s : State) (k : Nat) (c : CheckCtl) : (s.setCheckCtl k c).seqrs = s.seqrs := rfl
@[simp] theorem State.setCheckCtl_checks (s : State) (k : Nat) (c : CheckCtl) : (s.setCheckCtl k c).checks = s.checks := rfl
@[simp] theorem State.setCheckCtl_disps (s : State) (k : Nat) (c : CheckCtl) : (s.setCheckCtl k c).disps = s.disps := rfl
@[simp] theorem State.setCheckCtl_l1s (s : State) (k : Nat) (c : CheckCtl) : (s.setCheckCtl k c).l1s = s.l1s := rfl
@[simp] theorem State.setCheckCtl_l2 (s : State) (k : Nat) (c : CheckCtl) : (s.setCheckCtl k c).l2 = s.l2 := rfl
@[simp] theorem State.setCheckCtl_msix (s : State) (k : Nat) (c : CheckCtl) : (s.setCheckCtl k c).msix = s.msix := rfl
@[simp] theorem State.setCheckCtl_msixFns (s : State) (k : Nat) (c : CheckCtl) : (s.setCheckCtl k c).msixFns = s.msixFns := rfl
@[simp] theorem State.setCheckCtl_mcs (s : State) (k : Nat) (c : CheckCtl) : (s.setCheckCtl k c).mcs = s.mcs := rfl
@[simp] theorem State.setCheckCtl_store (s : State) (k : Nat) (c : CheckCtl) : (s.setCheckCtl k c).store = s.store := rfl
@[simp] theorem State.setCheckCtl_streams (s : State) (k : Nat) (c : CheckCtl) : (s.setCheckCtl k c).streams = s.streams := rfl
@[simp] theorem State.setCheckCtl_qe (s : State) (k : Nat) (c : CheckCtl) : (s.setCheckCtl k c).qe = s.qe := rfl
@[simp] theorem State.setCheckCtl_mem (s : State) (k : Nat) (c : CheckCtl) : (s.setCheckCtl k c).mem = s.mem := rfl
@[simp] theorem State.setCheckCtl_hanks (s : State) (k : Nat) (c : CheckCtl) : (s.setCheckCtl k c).hanks = s.hanks := rfl
@[simp] theorem State.setCheckCtl_hbms (s : State) (k : Nat) (c : CheckCtl) : (s.setCheckCtl k c).hbms = s.hbms := rfl
@[simp] theorem State.setCheckCtl_rsv (s : State) (k : Nat) (c : CheckCtl) : (s.setCheckCtl k c).rsv = s.rsv := rfl
@[simp] theorem State.setCheckCtl_locks (s : State) (k : Nat) (c : CheckCtl) : (s.setCheckCtl k c).locks = s.locks := rfl
@[simp] theorem State.setCheckCtl_parts (s : State) (k : Nat) (c : CheckCtl) : (s.setCheckCtl k c).parts = s.parts := rfl
@[simp] theorem State.setCheckCtl_granOwn (s : State) (k : Nat) (c : CheckCtl) : (s.setCheckCtl k c).granOwn = s.granOwn := rfl
@[simp] theorem State.setCheckCtl_granNext (s : State) (k : Nat) (c : CheckCtl) : (s.setCheckCtl k c).granNext = s.granNext := rfl
@[simp] theorem State.setCheckCtl_posMap (s : State) (k : Nat) (c : CheckCtl) : (s.setCheckCtl k c).posMap = s.posMap := rfl
@[simp] theorem State.setCheckCtl_rings (s : State) (k : Nat) (c : CheckCtl) : (s.setCheckCtl k c).rings = s.rings := rfl
@[simp] theorem State.setCheckCtl_sent (s : State) (k : Nat) (c : CheckCtl) : (s.setCheckCtl k c).sent = s.sent := rfl
@[simp] theorem State.setCheckCtl_resp (s : State) (k : Nat) (c : CheckCtl) : (s.setCheckCtl k c).resp = s.resp := rfl
@[simp] theorem State.setCheckCtl_node (s : State) (k : Nat) (c : CheckCtl) : (s.setCheckCtl k c).node = s.node := rfl
@[simp] theorem State.setCheckCtl_hbmReqs (s : State) (k : Nat) (c : CheckCtl) : (s.setCheckCtl k c).hbmReqs = s.hbmReqs := rfl
@[simp] theorem State.setCheckCtl_traceOut (s : State) (k : Nat) (c : CheckCtl) : (s.setCheckCtl k c).traceOut = s.traceOut := rfl
@[simp] theorem State.setCheckCtl_dict (s : State) (k : Nat) (c : CheckCtl) : (s.setCheckCtl k c).dict = s.dict := rfl
@[simp] theorem State.setCheckCtl_doms (s : State) (k : Nat) (c : CheckCtl) : (s.setCheckCtl k c).doms = s.doms := rfl
@[simp] theorem State.setCheckCtl_selects (s : State) (k : Nat) (c : CheckCtl) : (s.setCheckCtl k c).selects = s.selects := rfl
@[simp] theorem State.setCheckCtl_prickUnits (s : State) (k : Nat) (c : CheckCtl) : (s.setCheckCtl k c).prickUnits = s.prickUnits := rfl
@[simp] theorem State.setCheckCtl_cards (s : State) (k : Nat) (c : CheckCtl) : (s.setCheckCtl k c).cards = s.cards := rfl
@[simp] theorem State.setCheckCtl_shuttles (s : State) (k : Nat) (c : CheckCtl) : (s.setCheckCtl k c).shuttles = s.shuttles := rfl
@[simp] theorem State.setCheckCtl_egress (s : State) (k : Nat) (c : CheckCtl) : (s.setCheckCtl k c).egress = s.egress := rfl
@[simp] theorem State.setCheckCtl_timers (s : State) (k : Nat) (c : CheckCtl) : (s.setCheckCtl k c).timers = s.timers := rfl
@[simp] theorem State.setCheckCtl_mailboxes (s : State) (k : Nat) (c : CheckCtl) : (s.setCheckCtl k c).mailboxes = s.mailboxes := rfl
@[simp] theorem State.setCheckCtl_hostReads (s : State) (k : Nat) (c : CheckCtl) : (s.setCheckCtl k c).hostReads = s.hostReads := rfl
@[simp] theorem State.setCheckCtl_hdms (s : State) (k : Nat) (c : CheckCtl) : (s.setCheckCtl k c).hdms = s.hdms := rfl
@[simp] theorem State.setCheckCtl_cxlCache (s : State) (k : Nat) (c : CheckCtl) : (s.setCheckCtl k c).cxlCache = s.cxlCache := rfl
@[simp] theorem State.setCheckCtl_ats (s : State) (k : Nat) (c : CheckCtl) : (s.setCheckCtl k c).ats = s.ats := rfl
@[simp] theorem State.setCheckCtl_aer (s : State) (k : Nat) (c : CheckCtl) : (s.setCheckCtl k c).aer = s.aer := rfl
@[simp] theorem State.setCheckCtl_mgmt (s : State) (k : Nat) (c : CheckCtl) : (s.setCheckCtl k c).mgmt = s.mgmt := rfl
@[simp] theorem State.setCheckCtl_rst (s : State) (k : Nat) (c : CheckCtl) : (s.setCheckCtl k c).rst = s.rst := rfl

/-! ### setDisp -/

@[simp] theorem State.setDisp_pending (s : State) (k : Nat) (d : Disp) : (s.setDisp k d).pending = s.pending := rfl
@[simp] theorem State.setDisp_clock (s : State) (k : Nat) (d : Disp) : (s.setDisp k d).clock = s.clock := rfl
@[simp] theorem State.setDisp_time (s : State) (k : Nat) (d : Disp) : (s.setDisp k d).time = s.time := rfl
@[simp] theorem State.setDisp_cores (s : State) (k : Nat) (d : Disp) : (s.setDisp k d).cores = s.cores := rfl
@[simp] theorem State.setDisp_seqrs (s : State) (k : Nat) (d : Disp) : (s.setDisp k d).seqrs = s.seqrs := rfl
@[simp] theorem State.setDisp_checks (s : State) (k : Nat) (d : Disp) : (s.setDisp k d).checks = s.checks := rfl
@[simp] theorem State.setDisp_checkCtls (s : State) (k : Nat) (d : Disp) : (s.setDisp k d).checkCtls = s.checkCtls := rfl
@[simp] theorem State.setDisp_l1s (s : State) (k : Nat) (d : Disp) : (s.setDisp k d).l1s = s.l1s := rfl
@[simp] theorem State.setDisp_l2 (s : State) (k : Nat) (d : Disp) : (s.setDisp k d).l2 = s.l2 := rfl
@[simp] theorem State.setDisp_msix (s : State) (k : Nat) (d : Disp) : (s.setDisp k d).msix = s.msix := rfl
@[simp] theorem State.setDisp_msixFns (s : State) (k : Nat) (d : Disp) : (s.setDisp k d).msixFns = s.msixFns := rfl
@[simp] theorem State.setDisp_mcs (s : State) (k : Nat) (d : Disp) : (s.setDisp k d).mcs = s.mcs := rfl
@[simp] theorem State.setDisp_store (s : State) (k : Nat) (d : Disp) : (s.setDisp k d).store = s.store := rfl
@[simp] theorem State.setDisp_streams (s : State) (k : Nat) (d : Disp) : (s.setDisp k d).streams = s.streams := rfl
@[simp] theorem State.setDisp_qe (s : State) (k : Nat) (d : Disp) : (s.setDisp k d).qe = s.qe := rfl
@[simp] theorem State.setDisp_mem (s : State) (k : Nat) (d : Disp) : (s.setDisp k d).mem = s.mem := rfl
@[simp] theorem State.setDisp_hanks (s : State) (k : Nat) (d : Disp) : (s.setDisp k d).hanks = s.hanks := rfl
@[simp] theorem State.setDisp_hbms (s : State) (k : Nat) (d : Disp) : (s.setDisp k d).hbms = s.hbms := rfl
@[simp] theorem State.setDisp_rsv (s : State) (k : Nat) (d : Disp) : (s.setDisp k d).rsv = s.rsv := rfl
@[simp] theorem State.setDisp_locks (s : State) (k : Nat) (d : Disp) : (s.setDisp k d).locks = s.locks := rfl
@[simp] theorem State.setDisp_parts (s : State) (k : Nat) (d : Disp) : (s.setDisp k d).parts = s.parts := rfl
@[simp] theorem State.setDisp_granOwn (s : State) (k : Nat) (d : Disp) : (s.setDisp k d).granOwn = s.granOwn := rfl
@[simp] theorem State.setDisp_granNext (s : State) (k : Nat) (d : Disp) : (s.setDisp k d).granNext = s.granNext := rfl
@[simp] theorem State.setDisp_posMap (s : State) (k : Nat) (d : Disp) : (s.setDisp k d).posMap = s.posMap := rfl
@[simp] theorem State.setDisp_rings (s : State) (k : Nat) (d : Disp) : (s.setDisp k d).rings = s.rings := rfl
@[simp] theorem State.setDisp_sent (s : State) (k : Nat) (d : Disp) : (s.setDisp k d).sent = s.sent := rfl
@[simp] theorem State.setDisp_resp (s : State) (k : Nat) (d : Disp) : (s.setDisp k d).resp = s.resp := rfl
@[simp] theorem State.setDisp_node (s : State) (k : Nat) (d : Disp) : (s.setDisp k d).node = s.node := rfl
@[simp] theorem State.setDisp_hbmReqs (s : State) (k : Nat) (d : Disp) : (s.setDisp k d).hbmReqs = s.hbmReqs := rfl
@[simp] theorem State.setDisp_traceOut (s : State) (k : Nat) (d : Disp) : (s.setDisp k d).traceOut = s.traceOut := rfl
@[simp] theorem State.setDisp_dict (s : State) (k : Nat) (d : Disp) : (s.setDisp k d).dict = s.dict := rfl
@[simp] theorem State.setDisp_doms (s : State) (k : Nat) (d : Disp) : (s.setDisp k d).doms = s.doms := rfl
@[simp] theorem State.setDisp_selects (s : State) (k : Nat) (d : Disp) : (s.setDisp k d).selects = s.selects := rfl
@[simp] theorem State.setDisp_prickUnits (s : State) (k : Nat) (d : Disp) : (s.setDisp k d).prickUnits = s.prickUnits := rfl
@[simp] theorem State.setDisp_cards (s : State) (k : Nat) (d : Disp) : (s.setDisp k d).cards = s.cards := rfl
@[simp] theorem State.setDisp_shuttles (s : State) (k : Nat) (d : Disp) : (s.setDisp k d).shuttles = s.shuttles := rfl
@[simp] theorem State.setDisp_egress (s : State) (k : Nat) (d : Disp) : (s.setDisp k d).egress = s.egress := rfl
@[simp] theorem State.setDisp_timers (s : State) (k : Nat) (d : Disp) : (s.setDisp k d).timers = s.timers := rfl
@[simp] theorem State.setDisp_mailboxes (s : State) (k : Nat) (d : Disp) : (s.setDisp k d).mailboxes = s.mailboxes := rfl
@[simp] theorem State.setDisp_hostReads (s : State) (k : Nat) (d : Disp) : (s.setDisp k d).hostReads = s.hostReads := rfl
@[simp] theorem State.setDisp_hdms (s : State) (k : Nat) (d : Disp) : (s.setDisp k d).hdms = s.hdms := rfl
@[simp] theorem State.setDisp_cxlCache (s : State) (k : Nat) (d : Disp) : (s.setDisp k d).cxlCache = s.cxlCache := rfl
@[simp] theorem State.setDisp_ats (s : State) (k : Nat) (d : Disp) : (s.setDisp k d).ats = s.ats := rfl
@[simp] theorem State.setDisp_aer (s : State) (k : Nat) (d : Disp) : (s.setDisp k d).aer = s.aer := rfl
@[simp] theorem State.setDisp_mgmt (s : State) (k : Nat) (d : Disp) : (s.setDisp k d).mgmt = s.mgmt := rfl
@[simp] theorem State.setDisp_rst (s : State) (k : Nat) (d : Disp) : (s.setDisp k d).rst = s.rst := rfl

/-! ### setL1 -/

@[simp] theorem State.setL1_pending (s : State) (w : Nat) (x : L1) : (s.setL1 w x).pending = s.pending := rfl
@[simp] theorem State.setL1_clock (s : State) (w : Nat) (x : L1) : (s.setL1 w x).clock = s.clock := rfl
@[simp] theorem State.setL1_time (s : State) (w : Nat) (x : L1) : (s.setL1 w x).time = s.time := rfl
@[simp] theorem State.setL1_cores (s : State) (w : Nat) (x : L1) : (s.setL1 w x).cores = s.cores := rfl
@[simp] theorem State.setL1_seqrs (s : State) (w : Nat) (x : L1) : (s.setL1 w x).seqrs = s.seqrs := rfl
@[simp] theorem State.setL1_checks (s : State) (w : Nat) (x : L1) : (s.setL1 w x).checks = s.checks := rfl
@[simp] theorem State.setL1_checkCtls (s : State) (w : Nat) (x : L1) : (s.setL1 w x).checkCtls = s.checkCtls := rfl
@[simp] theorem State.setL1_disps (s : State) (w : Nat) (x : L1) : (s.setL1 w x).disps = s.disps := rfl
@[simp] theorem State.setL1_l2 (s : State) (w : Nat) (x : L1) : (s.setL1 w x).l2 = s.l2 := rfl
@[simp] theorem State.setL1_msix (s : State) (w : Nat) (x : L1) : (s.setL1 w x).msix = s.msix := rfl
@[simp] theorem State.setL1_msixFns (s : State) (w : Nat) (x : L1) : (s.setL1 w x).msixFns = s.msixFns := rfl
@[simp] theorem State.setL1_mcs (s : State) (w : Nat) (x : L1) : (s.setL1 w x).mcs = s.mcs := rfl
@[simp] theorem State.setL1_store (s : State) (w : Nat) (x : L1) : (s.setL1 w x).store = s.store := rfl
@[simp] theorem State.setL1_streams (s : State) (w : Nat) (x : L1) : (s.setL1 w x).streams = s.streams := rfl
@[simp] theorem State.setL1_qe (s : State) (w : Nat) (x : L1) : (s.setL1 w x).qe = s.qe := rfl
@[simp] theorem State.setL1_mem (s : State) (w : Nat) (x : L1) : (s.setL1 w x).mem = s.mem := rfl
@[simp] theorem State.setL1_hanks (s : State) (w : Nat) (x : L1) : (s.setL1 w x).hanks = s.hanks := rfl
@[simp] theorem State.setL1_hbms (s : State) (w : Nat) (x : L1) : (s.setL1 w x).hbms = s.hbms := rfl
@[simp] theorem State.setL1_rsv (s : State) (w : Nat) (x : L1) : (s.setL1 w x).rsv = s.rsv := rfl
@[simp] theorem State.setL1_locks (s : State) (w : Nat) (x : L1) : (s.setL1 w x).locks = s.locks := rfl
@[simp] theorem State.setL1_parts (s : State) (w : Nat) (x : L1) : (s.setL1 w x).parts = s.parts := rfl
@[simp] theorem State.setL1_granOwn (s : State) (w : Nat) (x : L1) : (s.setL1 w x).granOwn = s.granOwn := rfl
@[simp] theorem State.setL1_granNext (s : State) (w : Nat) (x : L1) : (s.setL1 w x).granNext = s.granNext := rfl
@[simp] theorem State.setL1_posMap (s : State) (w : Nat) (x : L1) : (s.setL1 w x).posMap = s.posMap := rfl
@[simp] theorem State.setL1_rings (s : State) (w : Nat) (x : L1) : (s.setL1 w x).rings = s.rings := rfl
@[simp] theorem State.setL1_sent (s : State) (w : Nat) (x : L1) : (s.setL1 w x).sent = s.sent := rfl
@[simp] theorem State.setL1_resp (s : State) (w : Nat) (x : L1) : (s.setL1 w x).resp = s.resp := rfl
@[simp] theorem State.setL1_node (s : State) (w : Nat) (x : L1) : (s.setL1 w x).node = s.node := rfl
@[simp] theorem State.setL1_hbmReqs (s : State) (w : Nat) (x : L1) : (s.setL1 w x).hbmReqs = s.hbmReqs := rfl
@[simp] theorem State.setL1_traceOut (s : State) (w : Nat) (x : L1) : (s.setL1 w x).traceOut = s.traceOut := rfl
@[simp] theorem State.setL1_dict (s : State) (w : Nat) (x : L1) : (s.setL1 w x).dict = s.dict := rfl
@[simp] theorem State.setL1_doms (s : State) (w : Nat) (x : L1) : (s.setL1 w x).doms = s.doms := rfl
@[simp] theorem State.setL1_selects (s : State) (w : Nat) (x : L1) : (s.setL1 w x).selects = s.selects := rfl
@[simp] theorem State.setL1_prickUnits (s : State) (w : Nat) (x : L1) : (s.setL1 w x).prickUnits = s.prickUnits := rfl
@[simp] theorem State.setL1_cards (s : State) (w : Nat) (x : L1) : (s.setL1 w x).cards = s.cards := rfl
@[simp] theorem State.setL1_shuttles (s : State) (w : Nat) (x : L1) : (s.setL1 w x).shuttles = s.shuttles := rfl
@[simp] theorem State.setL1_egress (s : State) (w : Nat) (x : L1) : (s.setL1 w x).egress = s.egress := rfl
@[simp] theorem State.setL1_timers (s : State) (w : Nat) (x : L1) : (s.setL1 w x).timers = s.timers := rfl
@[simp] theorem State.setL1_mailboxes (s : State) (w : Nat) (x : L1) : (s.setL1 w x).mailboxes = s.mailboxes := rfl
@[simp] theorem State.setL1_hostReads (s : State) (w : Nat) (x : L1) : (s.setL1 w x).hostReads = s.hostReads := rfl
@[simp] theorem State.setL1_hdms (s : State) (w : Nat) (x : L1) : (s.setL1 w x).hdms = s.hdms := rfl
@[simp] theorem State.setL1_cxlCache (s : State) (w : Nat) (x : L1) : (s.setL1 w x).cxlCache = s.cxlCache := rfl
@[simp] theorem State.setL1_ats (s : State) (w : Nat) (x : L1) : (s.setL1 w x).ats = s.ats := rfl
@[simp] theorem State.setL1_aer (s : State) (w : Nat) (x : L1) : (s.setL1 w x).aer = s.aer := rfl
@[simp] theorem State.setL1_mgmt (s : State) (w : Nat) (x : L1) : (s.setL1 w x).mgmt = s.mgmt := rfl
@[simp] theorem State.setL1_rst (s : State) (w : Nat) (x : L1) : (s.setL1 w x).rst = s.rst := rfl

/-! ### setMc -/

@[simp] theorem State.setMc_pending (s : State) (w : Nat) (x : Mc) : (s.setMc w x).pending = s.pending := rfl
@[simp] theorem State.setMc_clock (s : State) (w : Nat) (x : Mc) : (s.setMc w x).clock = s.clock := rfl
@[simp] theorem State.setMc_time (s : State) (w : Nat) (x : Mc) : (s.setMc w x).time = s.time := rfl
@[simp] theorem State.setMc_cores (s : State) (w : Nat) (x : Mc) : (s.setMc w x).cores = s.cores := rfl
@[simp] theorem State.setMc_seqrs (s : State) (w : Nat) (x : Mc) : (s.setMc w x).seqrs = s.seqrs := rfl
@[simp] theorem State.setMc_checks (s : State) (w : Nat) (x : Mc) : (s.setMc w x).checks = s.checks := rfl
@[simp] theorem State.setMc_checkCtls (s : State) (w : Nat) (x : Mc) : (s.setMc w x).checkCtls = s.checkCtls := rfl
@[simp] theorem State.setMc_disps (s : State) (w : Nat) (x : Mc) : (s.setMc w x).disps = s.disps := rfl
@[simp] theorem State.setMc_l1s (s : State) (w : Nat) (x : Mc) : (s.setMc w x).l1s = s.l1s := rfl
@[simp] theorem State.setMc_l2 (s : State) (w : Nat) (x : Mc) : (s.setMc w x).l2 = s.l2 := rfl
@[simp] theorem State.setMc_msix (s : State) (w : Nat) (x : Mc) : (s.setMc w x).msix = s.msix := rfl
@[simp] theorem State.setMc_msixFns (s : State) (w : Nat) (x : Mc) : (s.setMc w x).msixFns = s.msixFns := rfl
@[simp] theorem State.setMc_store (s : State) (w : Nat) (x : Mc) : (s.setMc w x).store = s.store := rfl
@[simp] theorem State.setMc_streams (s : State) (w : Nat) (x : Mc) : (s.setMc w x).streams = s.streams := rfl
@[simp] theorem State.setMc_qe (s : State) (w : Nat) (x : Mc) : (s.setMc w x).qe = s.qe := rfl
@[simp] theorem State.setMc_mem (s : State) (w : Nat) (x : Mc) : (s.setMc w x).mem = s.mem := rfl
@[simp] theorem State.setMc_hanks (s : State) (w : Nat) (x : Mc) : (s.setMc w x).hanks = s.hanks := rfl
@[simp] theorem State.setMc_hbms (s : State) (w : Nat) (x : Mc) : (s.setMc w x).hbms = s.hbms := rfl
@[simp] theorem State.setMc_rsv (s : State) (w : Nat) (x : Mc) : (s.setMc w x).rsv = s.rsv := rfl
@[simp] theorem State.setMc_locks (s : State) (w : Nat) (x : Mc) : (s.setMc w x).locks = s.locks := rfl
@[simp] theorem State.setMc_parts (s : State) (w : Nat) (x : Mc) : (s.setMc w x).parts = s.parts := rfl
@[simp] theorem State.setMc_granOwn (s : State) (w : Nat) (x : Mc) : (s.setMc w x).granOwn = s.granOwn := rfl
@[simp] theorem State.setMc_granNext (s : State) (w : Nat) (x : Mc) : (s.setMc w x).granNext = s.granNext := rfl
@[simp] theorem State.setMc_posMap (s : State) (w : Nat) (x : Mc) : (s.setMc w x).posMap = s.posMap := rfl
@[simp] theorem State.setMc_rings (s : State) (w : Nat) (x : Mc) : (s.setMc w x).rings = s.rings := rfl
@[simp] theorem State.setMc_sent (s : State) (w : Nat) (x : Mc) : (s.setMc w x).sent = s.sent := rfl
@[simp] theorem State.setMc_resp (s : State) (w : Nat) (x : Mc) : (s.setMc w x).resp = s.resp := rfl
@[simp] theorem State.setMc_node (s : State) (w : Nat) (x : Mc) : (s.setMc w x).node = s.node := rfl
@[simp] theorem State.setMc_hbmReqs (s : State) (w : Nat) (x : Mc) : (s.setMc w x).hbmReqs = s.hbmReqs := rfl
@[simp] theorem State.setMc_traceOut (s : State) (w : Nat) (x : Mc) : (s.setMc w x).traceOut = s.traceOut := rfl
@[simp] theorem State.setMc_dict (s : State) (w : Nat) (x : Mc) : (s.setMc w x).dict = s.dict := rfl
@[simp] theorem State.setMc_doms (s : State) (w : Nat) (x : Mc) : (s.setMc w x).doms = s.doms := rfl
@[simp] theorem State.setMc_selects (s : State) (w : Nat) (x : Mc) : (s.setMc w x).selects = s.selects := rfl
@[simp] theorem State.setMc_prickUnits (s : State) (w : Nat) (x : Mc) : (s.setMc w x).prickUnits = s.prickUnits := rfl
@[simp] theorem State.setMc_cards (s : State) (w : Nat) (x : Mc) : (s.setMc w x).cards = s.cards := rfl
@[simp] theorem State.setMc_shuttles (s : State) (w : Nat) (x : Mc) : (s.setMc w x).shuttles = s.shuttles := rfl
@[simp] theorem State.setMc_egress (s : State) (w : Nat) (x : Mc) : (s.setMc w x).egress = s.egress := rfl
@[simp] theorem State.setMc_timers (s : State) (w : Nat) (x : Mc) : (s.setMc w x).timers = s.timers := rfl
@[simp] theorem State.setMc_mailboxes (s : State) (w : Nat) (x : Mc) : (s.setMc w x).mailboxes = s.mailboxes := rfl
@[simp] theorem State.setMc_hostReads (s : State) (w : Nat) (x : Mc) : (s.setMc w x).hostReads = s.hostReads := rfl
@[simp] theorem State.setMc_hdms (s : State) (w : Nat) (x : Mc) : (s.setMc w x).hdms = s.hdms := rfl
@[simp] theorem State.setMc_cxlCache (s : State) (w : Nat) (x : Mc) : (s.setMc w x).cxlCache = s.cxlCache := rfl
@[simp] theorem State.setMc_ats (s : State) (w : Nat) (x : Mc) : (s.setMc w x).ats = s.ats := rfl
@[simp] theorem State.setMc_aer (s : State) (w : Nat) (x : Mc) : (s.setMc w x).aer = s.aer := rfl
@[simp] theorem State.setMc_mgmt (s : State) (w : Nat) (x : Mc) : (s.setMc w x).mgmt = s.mgmt := rfl
@[simp] theorem State.setMc_rst (s : State) (w : Nat) (x : Mc) : (s.setMc w x).rst = s.rst := rfl

/-! ### setHank -/

@[simp] theorem State.setHank_pending (s : State) (n : Nat) (h : Hank) : (s.setHank n h).pending = s.pending := rfl
@[simp] theorem State.setHank_clock (s : State) (n : Nat) (h : Hank) : (s.setHank n h).clock = s.clock := rfl
@[simp] theorem State.setHank_time (s : State) (n : Nat) (h : Hank) : (s.setHank n h).time = s.time := rfl
@[simp] theorem State.setHank_cores (s : State) (n : Nat) (h : Hank) : (s.setHank n h).cores = s.cores := rfl
@[simp] theorem State.setHank_seqrs (s : State) (n : Nat) (h : Hank) : (s.setHank n h).seqrs = s.seqrs := rfl
@[simp] theorem State.setHank_checks (s : State) (n : Nat) (h : Hank) : (s.setHank n h).checks = s.checks := rfl
@[simp] theorem State.setHank_checkCtls (s : State) (n : Nat) (h : Hank) : (s.setHank n h).checkCtls = s.checkCtls := rfl
@[simp] theorem State.setHank_disps (s : State) (n : Nat) (h : Hank) : (s.setHank n h).disps = s.disps := rfl
@[simp] theorem State.setHank_l1s (s : State) (n : Nat) (h : Hank) : (s.setHank n h).l1s = s.l1s := rfl
@[simp] theorem State.setHank_l2 (s : State) (n : Nat) (h : Hank) : (s.setHank n h).l2 = s.l2 := rfl
@[simp] theorem State.setHank_msix (s : State) (n : Nat) (h : Hank) : (s.setHank n h).msix = s.msix := rfl
@[simp] theorem State.setHank_msixFns (s : State) (n : Nat) (h : Hank) : (s.setHank n h).msixFns = s.msixFns := rfl
@[simp] theorem State.setHank_mcs (s : State) (n : Nat) (h : Hank) : (s.setHank n h).mcs = s.mcs := rfl
@[simp] theorem State.setHank_store (s : State) (n : Nat) (h : Hank) : (s.setHank n h).store = s.store := rfl
@[simp] theorem State.setHank_streams (s : State) (n : Nat) (h : Hank) : (s.setHank n h).streams = s.streams := rfl
@[simp] theorem State.setHank_qe (s : State) (n : Nat) (h : Hank) : (s.setHank n h).qe = s.qe := rfl
@[simp] theorem State.setHank_mem (s : State) (n : Nat) (h : Hank) : (s.setHank n h).mem = s.mem := rfl
@[simp] theorem State.setHank_hbms (s : State) (n : Nat) (h : Hank) : (s.setHank n h).hbms = s.hbms := rfl
@[simp] theorem State.setHank_rsv (s : State) (n : Nat) (h : Hank) : (s.setHank n h).rsv = s.rsv := rfl
@[simp] theorem State.setHank_locks (s : State) (n : Nat) (h : Hank) : (s.setHank n h).locks = s.locks := rfl
@[simp] theorem State.setHank_parts (s : State) (n : Nat) (h : Hank) : (s.setHank n h).parts = s.parts := rfl
@[simp] theorem State.setHank_granOwn (s : State) (n : Nat) (h : Hank) : (s.setHank n h).granOwn = s.granOwn := rfl
@[simp] theorem State.setHank_granNext (s : State) (n : Nat) (h : Hank) : (s.setHank n h).granNext = s.granNext := rfl
@[simp] theorem State.setHank_posMap (s : State) (n : Nat) (h : Hank) : (s.setHank n h).posMap = s.posMap := rfl
@[simp] theorem State.setHank_rings (s : State) (n : Nat) (h : Hank) : (s.setHank n h).rings = s.rings := rfl
@[simp] theorem State.setHank_sent (s : State) (n : Nat) (h : Hank) : (s.setHank n h).sent = s.sent := rfl
@[simp] theorem State.setHank_resp (s : State) (n : Nat) (h : Hank) : (s.setHank n h).resp = s.resp := rfl
@[simp] theorem State.setHank_node (s : State) (n : Nat) (h : Hank) : (s.setHank n h).node = s.node := rfl
@[simp] theorem State.setHank_hbmReqs (s : State) (n : Nat) (h : Hank) : (s.setHank n h).hbmReqs = s.hbmReqs := rfl
@[simp] theorem State.setHank_traceOut (s : State) (n : Nat) (h : Hank) : (s.setHank n h).traceOut = s.traceOut := rfl
@[simp] theorem State.setHank_dict (s : State) (n : Nat) (h : Hank) : (s.setHank n h).dict = s.dict := rfl
@[simp] theorem State.setHank_doms (s : State) (n : Nat) (h : Hank) : (s.setHank n h).doms = s.doms := rfl
@[simp] theorem State.setHank_selects (s : State) (n : Nat) (h : Hank) : (s.setHank n h).selects = s.selects := rfl
@[simp] theorem State.setHank_prickUnits (s : State) (n : Nat) (h : Hank) : (s.setHank n h).prickUnits = s.prickUnits := rfl
@[simp] theorem State.setHank_cards (s : State) (n : Nat) (h : Hank) : (s.setHank n h).cards = s.cards := rfl
@[simp] theorem State.setHank_shuttles (s : State) (n : Nat) (h : Hank) : (s.setHank n h).shuttles = s.shuttles := rfl
@[simp] theorem State.setHank_egress (s : State) (n : Nat) (h : Hank) : (s.setHank n h).egress = s.egress := rfl
@[simp] theorem State.setHank_timers (s : State) (n : Nat) (h : Hank) : (s.setHank n h).timers = s.timers := rfl
@[simp] theorem State.setHank_mailboxes (s : State) (n : Nat) (h : Hank) : (s.setHank n h).mailboxes = s.mailboxes := rfl
@[simp] theorem State.setHank_hostReads (s : State) (n : Nat) (h : Hank) : (s.setHank n h).hostReads = s.hostReads := rfl
@[simp] theorem State.setHank_hdms (s : State) (n : Nat) (h : Hank) : (s.setHank n h).hdms = s.hdms := rfl
@[simp] theorem State.setHank_cxlCache (s : State) (n : Nat) (h : Hank) : (s.setHank n h).cxlCache = s.cxlCache := rfl
@[simp] theorem State.setHank_ats (s : State) (n : Nat) (h : Hank) : (s.setHank n h).ats = s.ats := rfl
@[simp] theorem State.setHank_aer (s : State) (n : Nat) (h : Hank) : (s.setHank n h).aer = s.aer := rfl
@[simp] theorem State.setHank_mgmt (s : State) (n : Nat) (h : Hank) : (s.setHank n h).mgmt = s.mgmt := rfl
@[simp] theorem State.setHank_rst (s : State) (n : Nat) (h : Hank) : (s.setHank n h).rst = s.rst := rfl

/-! ### setStack -/

@[simp] theorem State.setStack_pending (s : State) (n : Nat) (h : Stack) : (s.setStack n h).pending = s.pending := rfl
@[simp] theorem State.setStack_clock (s : State) (n : Nat) (h : Stack) : (s.setStack n h).clock = s.clock := rfl
@[simp] theorem State.setStack_time (s : State) (n : Nat) (h : Stack) : (s.setStack n h).time = s.time := rfl
@[simp] theorem State.setStack_cores (s : State) (n : Nat) (h : Stack) : (s.setStack n h).cores = s.cores := rfl
@[simp] theorem State.setStack_seqrs (s : State) (n : Nat) (h : Stack) : (s.setStack n h).seqrs = s.seqrs := rfl
@[simp] theorem State.setStack_checks (s : State) (n : Nat) (h : Stack) : (s.setStack n h).checks = s.checks := rfl
@[simp] theorem State.setStack_checkCtls (s : State) (n : Nat) (h : Stack) : (s.setStack n h).checkCtls = s.checkCtls := rfl
@[simp] theorem State.setStack_disps (s : State) (n : Nat) (h : Stack) : (s.setStack n h).disps = s.disps := rfl
@[simp] theorem State.setStack_l1s (s : State) (n : Nat) (h : Stack) : (s.setStack n h).l1s = s.l1s := rfl
@[simp] theorem State.setStack_l2 (s : State) (n : Nat) (h : Stack) : (s.setStack n h).l2 = s.l2 := rfl
@[simp] theorem State.setStack_msix (s : State) (n : Nat) (h : Stack) : (s.setStack n h).msix = s.msix := rfl
@[simp] theorem State.setStack_msixFns (s : State) (n : Nat) (h : Stack) : (s.setStack n h).msixFns = s.msixFns := rfl
@[simp] theorem State.setStack_mcs (s : State) (n : Nat) (h : Stack) : (s.setStack n h).mcs = s.mcs := rfl
@[simp] theorem State.setStack_store (s : State) (n : Nat) (h : Stack) : (s.setStack n h).store = s.store := rfl
@[simp] theorem State.setStack_streams (s : State) (n : Nat) (h : Stack) : (s.setStack n h).streams = s.streams := rfl
@[simp] theorem State.setStack_qe (s : State) (n : Nat) (h : Stack) : (s.setStack n h).qe = s.qe := rfl
@[simp] theorem State.setStack_mem (s : State) (n : Nat) (h : Stack) : (s.setStack n h).mem = s.mem := rfl
@[simp] theorem State.setStack_hanks (s : State) (n : Nat) (h : Stack) : (s.setStack n h).hanks = s.hanks := rfl
@[simp] theorem State.setStack_rsv (s : State) (n : Nat) (h : Stack) : (s.setStack n h).rsv = s.rsv := rfl
@[simp] theorem State.setStack_locks (s : State) (n : Nat) (h : Stack) : (s.setStack n h).locks = s.locks := rfl
@[simp] theorem State.setStack_parts (s : State) (n : Nat) (h : Stack) : (s.setStack n h).parts = s.parts := rfl
@[simp] theorem State.setStack_granOwn (s : State) (n : Nat) (h : Stack) : (s.setStack n h).granOwn = s.granOwn := rfl
@[simp] theorem State.setStack_granNext (s : State) (n : Nat) (h : Stack) : (s.setStack n h).granNext = s.granNext := rfl
@[simp] theorem State.setStack_posMap (s : State) (n : Nat) (h : Stack) : (s.setStack n h).posMap = s.posMap := rfl
@[simp] theorem State.setStack_rings (s : State) (n : Nat) (h : Stack) : (s.setStack n h).rings = s.rings := rfl
@[simp] theorem State.setStack_sent (s : State) (n : Nat) (h : Stack) : (s.setStack n h).sent = s.sent := rfl
@[simp] theorem State.setStack_resp (s : State) (n : Nat) (h : Stack) : (s.setStack n h).resp = s.resp := rfl
@[simp] theorem State.setStack_node (s : State) (n : Nat) (h : Stack) : (s.setStack n h).node = s.node := rfl
@[simp] theorem State.setStack_hbmReqs (s : State) (n : Nat) (h : Stack) : (s.setStack n h).hbmReqs = s.hbmReqs := rfl
@[simp] theorem State.setStack_traceOut (s : State) (n : Nat) (h : Stack) : (s.setStack n h).traceOut = s.traceOut := rfl
@[simp] theorem State.setStack_dict (s : State) (n : Nat) (h : Stack) : (s.setStack n h).dict = s.dict := rfl
@[simp] theorem State.setStack_doms (s : State) (n : Nat) (h : Stack) : (s.setStack n h).doms = s.doms := rfl
@[simp] theorem State.setStack_selects (s : State) (n : Nat) (h : Stack) : (s.setStack n h).selects = s.selects := rfl
@[simp] theorem State.setStack_prickUnits (s : State) (n : Nat) (h : Stack) : (s.setStack n h).prickUnits = s.prickUnits := rfl
@[simp] theorem State.setStack_cards (s : State) (n : Nat) (h : Stack) : (s.setStack n h).cards = s.cards := rfl
@[simp] theorem State.setStack_shuttles (s : State) (n : Nat) (h : Stack) : (s.setStack n h).shuttles = s.shuttles := rfl
@[simp] theorem State.setStack_egress (s : State) (n : Nat) (h : Stack) : (s.setStack n h).egress = s.egress := rfl
@[simp] theorem State.setStack_timers (s : State) (n : Nat) (h : Stack) : (s.setStack n h).timers = s.timers := rfl
@[simp] theorem State.setStack_mailboxes (s : State) (n : Nat) (h : Stack) : (s.setStack n h).mailboxes = s.mailboxes := rfl
@[simp] theorem State.setStack_hostReads (s : State) (n : Nat) (h : Stack) : (s.setStack n h).hostReads = s.hostReads := rfl
@[simp] theorem State.setStack_hdms (s : State) (n : Nat) (h : Stack) : (s.setStack n h).hdms = s.hdms := rfl
@[simp] theorem State.setStack_cxlCache (s : State) (n : Nat) (h : Stack) : (s.setStack n h).cxlCache = s.cxlCache := rfl
@[simp] theorem State.setStack_ats (s : State) (n : Nat) (h : Stack) : (s.setStack n h).ats = s.ats := rfl
@[simp] theorem State.setStack_aer (s : State) (n : Nat) (h : Stack) : (s.setStack n h).aer = s.aer := rfl
@[simp] theorem State.setStack_mgmt (s : State) (n : Nat) (h : Stack) : (s.setStack n h).mgmt = s.mgmt := rfl
@[simp] theorem State.setStack_rst (s : State) (n : Nat) (h : Stack) : (s.setStack n h).rst = s.rst := rfl

/-! ### setPart -/

@[simp] theorem State.setPart_pending (s : State) (p : Nat) (x : Part) : (s.setPart p x).pending = s.pending := rfl
@[simp] theorem State.setPart_clock (s : State) (p : Nat) (x : Part) : (s.setPart p x).clock = s.clock := rfl
@[simp] theorem State.setPart_time (s : State) (p : Nat) (x : Part) : (s.setPart p x).time = s.time := rfl
@[simp] theorem State.setPart_cores (s : State) (p : Nat) (x : Part) : (s.setPart p x).cores = s.cores := rfl
@[simp] theorem State.setPart_seqrs (s : State) (p : Nat) (x : Part) : (s.setPart p x).seqrs = s.seqrs := rfl
@[simp] theorem State.setPart_checks (s : State) (p : Nat) (x : Part) : (s.setPart p x).checks = s.checks := rfl
@[simp] theorem State.setPart_checkCtls (s : State) (p : Nat) (x : Part) : (s.setPart p x).checkCtls = s.checkCtls := rfl
@[simp] theorem State.setPart_disps (s : State) (p : Nat) (x : Part) : (s.setPart p x).disps = s.disps := rfl
@[simp] theorem State.setPart_l1s (s : State) (p : Nat) (x : Part) : (s.setPart p x).l1s = s.l1s := rfl
@[simp] theorem State.setPart_l2 (s : State) (p : Nat) (x : Part) : (s.setPart p x).l2 = s.l2 := rfl
@[simp] theorem State.setPart_msix (s : State) (p : Nat) (x : Part) : (s.setPart p x).msix = s.msix := rfl
@[simp] theorem State.setPart_msixFns (s : State) (p : Nat) (x : Part) : (s.setPart p x).msixFns = s.msixFns := rfl
@[simp] theorem State.setPart_mcs (s : State) (p : Nat) (x : Part) : (s.setPart p x).mcs = s.mcs := rfl
@[simp] theorem State.setPart_store (s : State) (p : Nat) (x : Part) : (s.setPart p x).store = s.store := rfl
@[simp] theorem State.setPart_streams (s : State) (p : Nat) (x : Part) : (s.setPart p x).streams = s.streams := rfl
@[simp] theorem State.setPart_qe (s : State) (p : Nat) (x : Part) : (s.setPart p x).qe = s.qe := rfl
@[simp] theorem State.setPart_mem (s : State) (p : Nat) (x : Part) : (s.setPart p x).mem = s.mem := rfl
@[simp] theorem State.setPart_hanks (s : State) (p : Nat) (x : Part) : (s.setPart p x).hanks = s.hanks := rfl
@[simp] theorem State.setPart_hbms (s : State) (p : Nat) (x : Part) : (s.setPart p x).hbms = s.hbms := rfl
@[simp] theorem State.setPart_rsv (s : State) (p : Nat) (x : Part) : (s.setPart p x).rsv = s.rsv := rfl
@[simp] theorem State.setPart_locks (s : State) (p : Nat) (x : Part) : (s.setPart p x).locks = s.locks := rfl
@[simp] theorem State.setPart_granOwn (s : State) (p : Nat) (x : Part) : (s.setPart p x).granOwn = s.granOwn := rfl
@[simp] theorem State.setPart_granNext (s : State) (p : Nat) (x : Part) : (s.setPart p x).granNext = s.granNext := rfl
@[simp] theorem State.setPart_posMap (s : State) (p : Nat) (x : Part) : (s.setPart p x).posMap = s.posMap := rfl
@[simp] theorem State.setPart_rings (s : State) (p : Nat) (x : Part) : (s.setPart p x).rings = s.rings := rfl
@[simp] theorem State.setPart_sent (s : State) (p : Nat) (x : Part) : (s.setPart p x).sent = s.sent := rfl
@[simp] theorem State.setPart_resp (s : State) (p : Nat) (x : Part) : (s.setPart p x).resp = s.resp := rfl
@[simp] theorem State.setPart_node (s : State) (p : Nat) (x : Part) : (s.setPart p x).node = s.node := rfl
@[simp] theorem State.setPart_hbmReqs (s : State) (p : Nat) (x : Part) : (s.setPart p x).hbmReqs = s.hbmReqs := rfl
@[simp] theorem State.setPart_traceOut (s : State) (p : Nat) (x : Part) : (s.setPart p x).traceOut = s.traceOut := rfl
@[simp] theorem State.setPart_dict (s : State) (p : Nat) (x : Part) : (s.setPart p x).dict = s.dict := rfl
@[simp] theorem State.setPart_doms (s : State) (p : Nat) (x : Part) : (s.setPart p x).doms = s.doms := rfl
@[simp] theorem State.setPart_selects (s : State) (p : Nat) (x : Part) : (s.setPart p x).selects = s.selects := rfl
@[simp] theorem State.setPart_prickUnits (s : State) (p : Nat) (x : Part) : (s.setPart p x).prickUnits = s.prickUnits := rfl
@[simp] theorem State.setPart_cards (s : State) (p : Nat) (x : Part) : (s.setPart p x).cards = s.cards := rfl
@[simp] theorem State.setPart_shuttles (s : State) (p : Nat) (x : Part) : (s.setPart p x).shuttles = s.shuttles := rfl
@[simp] theorem State.setPart_egress (s : State) (p : Nat) (x : Part) : (s.setPart p x).egress = s.egress := rfl
@[simp] theorem State.setPart_timers (s : State) (p : Nat) (x : Part) : (s.setPart p x).timers = s.timers := rfl
@[simp] theorem State.setPart_mailboxes (s : State) (p : Nat) (x : Part) : (s.setPart p x).mailboxes = s.mailboxes := rfl
@[simp] theorem State.setPart_hostReads (s : State) (p : Nat) (x : Part) : (s.setPart p x).hostReads = s.hostReads := rfl
@[simp] theorem State.setPart_hdms (s : State) (p : Nat) (x : Part) : (s.setPart p x).hdms = s.hdms := rfl
@[simp] theorem State.setPart_cxlCache (s : State) (p : Nat) (x : Part) : (s.setPart p x).cxlCache = s.cxlCache := rfl
@[simp] theorem State.setPart_ats (s : State) (p : Nat) (x : Part) : (s.setPart p x).ats = s.ats := rfl
@[simp] theorem State.setPart_aer (s : State) (p : Nat) (x : Part) : (s.setPart p x).aer = s.aer := rfl
@[simp] theorem State.setPart_mgmt (s : State) (p : Nat) (x : Part) : (s.setPart p x).mgmt = s.mgmt := rfl
@[simp] theorem State.setPart_rst (s : State) (p : Nat) (x : Part) : (s.setPart p x).rst = s.rst := rfl

/-! ### setQueue -/

@[simp] theorem State.setQueue_pending (s : State) (q : Nat) (x : Queue) : (s.setQueue q x).pending = s.pending := rfl
@[simp] theorem State.setQueue_clock (s : State) (q : Nat) (x : Queue) : (s.setQueue q x).clock = s.clock := rfl
@[simp] theorem State.setQueue_time (s : State) (q : Nat) (x : Queue) : (s.setQueue q x).time = s.time := rfl
@[simp] theorem State.setQueue_cores (s : State) (q : Nat) (x : Queue) : (s.setQueue q x).cores = s.cores := rfl
@[simp] theorem State.setQueue_seqrs (s : State) (q : Nat) (x : Queue) : (s.setQueue q x).seqrs = s.seqrs := rfl
@[simp] theorem State.setQueue_checks (s : State) (q : Nat) (x : Queue) : (s.setQueue q x).checks = s.checks := rfl
@[simp] theorem State.setQueue_checkCtls (s : State) (q : Nat) (x : Queue) : (s.setQueue q x).checkCtls = s.checkCtls := rfl
@[simp] theorem State.setQueue_disps (s : State) (q : Nat) (x : Queue) : (s.setQueue q x).disps = s.disps := rfl
@[simp] theorem State.setQueue_l1s (s : State) (q : Nat) (x : Queue) : (s.setQueue q x).l1s = s.l1s := rfl
@[simp] theorem State.setQueue_l2 (s : State) (q : Nat) (x : Queue) : (s.setQueue q x).l2 = s.l2 := rfl
@[simp] theorem State.setQueue_msix (s : State) (q : Nat) (x : Queue) : (s.setQueue q x).msix = s.msix := rfl
@[simp] theorem State.setQueue_msixFns (s : State) (q : Nat) (x : Queue) : (s.setQueue q x).msixFns = s.msixFns := rfl
@[simp] theorem State.setQueue_mcs (s : State) (q : Nat) (x : Queue) : (s.setQueue q x).mcs = s.mcs := rfl
@[simp] theorem State.setQueue_store (s : State) (q : Nat) (x : Queue) : (s.setQueue q x).store = s.store := rfl
@[simp] theorem State.setQueue_streams (s : State) (q : Nat) (x : Queue) : (s.setQueue q x).streams = s.streams := rfl
@[simp] theorem State.setQueue_mem (s : State) (q : Nat) (x : Queue) : (s.setQueue q x).mem = s.mem := rfl
@[simp] theorem State.setQueue_hanks (s : State) (q : Nat) (x : Queue) : (s.setQueue q x).hanks = s.hanks := rfl
@[simp] theorem State.setQueue_hbms (s : State) (q : Nat) (x : Queue) : (s.setQueue q x).hbms = s.hbms := rfl
@[simp] theorem State.setQueue_rsv (s : State) (q : Nat) (x : Queue) : (s.setQueue q x).rsv = s.rsv := rfl
@[simp] theorem State.setQueue_locks (s : State) (q : Nat) (x : Queue) : (s.setQueue q x).locks = s.locks := rfl
@[simp] theorem State.setQueue_parts (s : State) (q : Nat) (x : Queue) : (s.setQueue q x).parts = s.parts := rfl
@[simp] theorem State.setQueue_granOwn (s : State) (q : Nat) (x : Queue) : (s.setQueue q x).granOwn = s.granOwn := rfl
@[simp] theorem State.setQueue_granNext (s : State) (q : Nat) (x : Queue) : (s.setQueue q x).granNext = s.granNext := rfl
@[simp] theorem State.setQueue_posMap (s : State) (q : Nat) (x : Queue) : (s.setQueue q x).posMap = s.posMap := rfl
@[simp] theorem State.setQueue_rings (s : State) (q : Nat) (x : Queue) : (s.setQueue q x).rings = s.rings := rfl
@[simp] theorem State.setQueue_sent (s : State) (q : Nat) (x : Queue) : (s.setQueue q x).sent = s.sent := rfl
@[simp] theorem State.setQueue_resp (s : State) (q : Nat) (x : Queue) : (s.setQueue q x).resp = s.resp := rfl
@[simp] theorem State.setQueue_node (s : State) (q : Nat) (x : Queue) : (s.setQueue q x).node = s.node := rfl
@[simp] theorem State.setQueue_hbmReqs (s : State) (q : Nat) (x : Queue) : (s.setQueue q x).hbmReqs = s.hbmReqs := rfl
@[simp] theorem State.setQueue_traceOut (s : State) (q : Nat) (x : Queue) : (s.setQueue q x).traceOut = s.traceOut := rfl
@[simp] theorem State.setQueue_dict (s : State) (q : Nat) (x : Queue) : (s.setQueue q x).dict = s.dict := rfl
@[simp] theorem State.setQueue_doms (s : State) (q : Nat) (x : Queue) : (s.setQueue q x).doms = s.doms := rfl
@[simp] theorem State.setQueue_selects (s : State) (q : Nat) (x : Queue) : (s.setQueue q x).selects = s.selects := rfl
@[simp] theorem State.setQueue_prickUnits (s : State) (q : Nat) (x : Queue) : (s.setQueue q x).prickUnits = s.prickUnits := rfl
@[simp] theorem State.setQueue_cards (s : State) (q : Nat) (x : Queue) : (s.setQueue q x).cards = s.cards := rfl
@[simp] theorem State.setQueue_shuttles (s : State) (q : Nat) (x : Queue) : (s.setQueue q x).shuttles = s.shuttles := rfl
@[simp] theorem State.setQueue_egress (s : State) (q : Nat) (x : Queue) : (s.setQueue q x).egress = s.egress := rfl
@[simp] theorem State.setQueue_timers (s : State) (q : Nat) (x : Queue) : (s.setQueue q x).timers = s.timers := rfl
@[simp] theorem State.setQueue_mailboxes (s : State) (q : Nat) (x : Queue) : (s.setQueue q x).mailboxes = s.mailboxes := rfl
@[simp] theorem State.setQueue_hostReads (s : State) (q : Nat) (x : Queue) : (s.setQueue q x).hostReads = s.hostReads := rfl
@[simp] theorem State.setQueue_hdms (s : State) (q : Nat) (x : Queue) : (s.setQueue q x).hdms = s.hdms := rfl
@[simp] theorem State.setQueue_cxlCache (s : State) (q : Nat) (x : Queue) : (s.setQueue q x).cxlCache = s.cxlCache := rfl
@[simp] theorem State.setQueue_ats (s : State) (q : Nat) (x : Queue) : (s.setQueue q x).ats = s.ats := rfl
@[simp] theorem State.setQueue_aer (s : State) (q : Nat) (x : Queue) : (s.setQueue q x).aer = s.aer := rfl
@[simp] theorem State.setQueue_mgmt (s : State) (q : Nat) (x : Queue) : (s.setQueue q x).mgmt = s.mgmt := rfl
@[simp] theorem State.setQueue_rst (s : State) (q : Nat) (x : Queue) : (s.setQueue q x).rst = s.rst := rfl

/-! ### setRegion -/

@[simp] theorem State.setRegion_pending (s : State) (r : Nat) (x : Region) : (s.setRegion r x).pending = s.pending := rfl
@[simp] theorem State.setRegion_clock (s : State) (r : Nat) (x : Region) : (s.setRegion r x).clock = s.clock := rfl
@[simp] theorem State.setRegion_time (s : State) (r : Nat) (x : Region) : (s.setRegion r x).time = s.time := rfl
@[simp] theorem State.setRegion_cores (s : State) (r : Nat) (x : Region) : (s.setRegion r x).cores = s.cores := rfl
@[simp] theorem State.setRegion_seqrs (s : State) (r : Nat) (x : Region) : (s.setRegion r x).seqrs = s.seqrs := rfl
@[simp] theorem State.setRegion_checks (s : State) (r : Nat) (x : Region) : (s.setRegion r x).checks = s.checks := rfl
@[simp] theorem State.setRegion_checkCtls (s : State) (r : Nat) (x : Region) : (s.setRegion r x).checkCtls = s.checkCtls := rfl
@[simp] theorem State.setRegion_disps (s : State) (r : Nat) (x : Region) : (s.setRegion r x).disps = s.disps := rfl
@[simp] theorem State.setRegion_l1s (s : State) (r : Nat) (x : Region) : (s.setRegion r x).l1s = s.l1s := rfl
@[simp] theorem State.setRegion_l2 (s : State) (r : Nat) (x : Region) : (s.setRegion r x).l2 = s.l2 := rfl
@[simp] theorem State.setRegion_msix (s : State) (r : Nat) (x : Region) : (s.setRegion r x).msix = s.msix := rfl
@[simp] theorem State.setRegion_msixFns (s : State) (r : Nat) (x : Region) : (s.setRegion r x).msixFns = s.msixFns := rfl
@[simp] theorem State.setRegion_mcs (s : State) (r : Nat) (x : Region) : (s.setRegion r x).mcs = s.mcs := rfl
@[simp] theorem State.setRegion_store (s : State) (r : Nat) (x : Region) : (s.setRegion r x).store = s.store := rfl
@[simp] theorem State.setRegion_streams (s : State) (r : Nat) (x : Region) : (s.setRegion r x).streams = s.streams := rfl
@[simp] theorem State.setRegion_mem (s : State) (r : Nat) (x : Region) : (s.setRegion r x).mem = s.mem := rfl
@[simp] theorem State.setRegion_hanks (s : State) (r : Nat) (x : Region) : (s.setRegion r x).hanks = s.hanks := rfl
@[simp] theorem State.setRegion_hbms (s : State) (r : Nat) (x : Region) : (s.setRegion r x).hbms = s.hbms := rfl
@[simp] theorem State.setRegion_rsv (s : State) (r : Nat) (x : Region) : (s.setRegion r x).rsv = s.rsv := rfl
@[simp] theorem State.setRegion_locks (s : State) (r : Nat) (x : Region) : (s.setRegion r x).locks = s.locks := rfl
@[simp] theorem State.setRegion_parts (s : State) (r : Nat) (x : Region) : (s.setRegion r x).parts = s.parts := rfl
@[simp] theorem State.setRegion_granOwn (s : State) (r : Nat) (x : Region) : (s.setRegion r x).granOwn = s.granOwn := rfl
@[simp] theorem State.setRegion_granNext (s : State) (r : Nat) (x : Region) : (s.setRegion r x).granNext = s.granNext := rfl
@[simp] theorem State.setRegion_posMap (s : State) (r : Nat) (x : Region) : (s.setRegion r x).posMap = s.posMap := rfl
@[simp] theorem State.setRegion_rings (s : State) (r : Nat) (x : Region) : (s.setRegion r x).rings = s.rings := rfl
@[simp] theorem State.setRegion_sent (s : State) (r : Nat) (x : Region) : (s.setRegion r x).sent = s.sent := rfl
@[simp] theorem State.setRegion_resp (s : State) (r : Nat) (x : Region) : (s.setRegion r x).resp = s.resp := rfl
@[simp] theorem State.setRegion_node (s : State) (r : Nat) (x : Region) : (s.setRegion r x).node = s.node := rfl
@[simp] theorem State.setRegion_hbmReqs (s : State) (r : Nat) (x : Region) : (s.setRegion r x).hbmReqs = s.hbmReqs := rfl
@[simp] theorem State.setRegion_traceOut (s : State) (r : Nat) (x : Region) : (s.setRegion r x).traceOut = s.traceOut := rfl
@[simp] theorem State.setRegion_dict (s : State) (r : Nat) (x : Region) : (s.setRegion r x).dict = s.dict := rfl
@[simp] theorem State.setRegion_doms (s : State) (r : Nat) (x : Region) : (s.setRegion r x).doms = s.doms := rfl
@[simp] theorem State.setRegion_selects (s : State) (r : Nat) (x : Region) : (s.setRegion r x).selects = s.selects := rfl
@[simp] theorem State.setRegion_prickUnits (s : State) (r : Nat) (x : Region) : (s.setRegion r x).prickUnits = s.prickUnits := rfl
@[simp] theorem State.setRegion_cards (s : State) (r : Nat) (x : Region) : (s.setRegion r x).cards = s.cards := rfl
@[simp] theorem State.setRegion_shuttles (s : State) (r : Nat) (x : Region) : (s.setRegion r x).shuttles = s.shuttles := rfl
@[simp] theorem State.setRegion_egress (s : State) (r : Nat) (x : Region) : (s.setRegion r x).egress = s.egress := rfl
@[simp] theorem State.setRegion_timers (s : State) (r : Nat) (x : Region) : (s.setRegion r x).timers = s.timers := rfl
@[simp] theorem State.setRegion_mailboxes (s : State) (r : Nat) (x : Region) : (s.setRegion r x).mailboxes = s.mailboxes := rfl
@[simp] theorem State.setRegion_hostReads (s : State) (r : Nat) (x : Region) : (s.setRegion r x).hostReads = s.hostReads := rfl
@[simp] theorem State.setRegion_hdms (s : State) (r : Nat) (x : Region) : (s.setRegion r x).hdms = s.hdms := rfl
@[simp] theorem State.setRegion_cxlCache (s : State) (r : Nat) (x : Region) : (s.setRegion r x).cxlCache = s.cxlCache := rfl
@[simp] theorem State.setRegion_ats (s : State) (r : Nat) (x : Region) : (s.setRegion r x).ats = s.ats := rfl
@[simp] theorem State.setRegion_aer (s : State) (r : Nat) (x : Region) : (s.setRegion r x).aer = s.aer := rfl
@[simp] theorem State.setRegion_mgmt (s : State) (r : Nat) (x : Region) : (s.setRegion r x).mgmt = s.mgmt := rfl
@[simp] theorem State.setRegion_rst (s : State) (r : Nat) (x : Region) : (s.setRegion r x).rst = s.rst := rfl

/-! ### setAux -/

@[simp] theorem State.setAux_pending (s : State) (c : Nat) (x : StreamAux) : (s.setAux c x).pending = s.pending := rfl
@[simp] theorem State.setAux_clock (s : State) (c : Nat) (x : StreamAux) : (s.setAux c x).clock = s.clock := rfl
@[simp] theorem State.setAux_time (s : State) (c : Nat) (x : StreamAux) : (s.setAux c x).time = s.time := rfl
@[simp] theorem State.setAux_cores (s : State) (c : Nat) (x : StreamAux) : (s.setAux c x).cores = s.cores := rfl
@[simp] theorem State.setAux_seqrs (s : State) (c : Nat) (x : StreamAux) : (s.setAux c x).seqrs = s.seqrs := rfl
@[simp] theorem State.setAux_checks (s : State) (c : Nat) (x : StreamAux) : (s.setAux c x).checks = s.checks := rfl
@[simp] theorem State.setAux_checkCtls (s : State) (c : Nat) (x : StreamAux) : (s.setAux c x).checkCtls = s.checkCtls := rfl
@[simp] theorem State.setAux_disps (s : State) (c : Nat) (x : StreamAux) : (s.setAux c x).disps = s.disps := rfl
@[simp] theorem State.setAux_l1s (s : State) (c : Nat) (x : StreamAux) : (s.setAux c x).l1s = s.l1s := rfl
@[simp] theorem State.setAux_l2 (s : State) (c : Nat) (x : StreamAux) : (s.setAux c x).l2 = s.l2 := rfl
@[simp] theorem State.setAux_msix (s : State) (c : Nat) (x : StreamAux) : (s.setAux c x).msix = s.msix := rfl
@[simp] theorem State.setAux_msixFns (s : State) (c : Nat) (x : StreamAux) : (s.setAux c x).msixFns = s.msixFns := rfl
@[simp] theorem State.setAux_mcs (s : State) (c : Nat) (x : StreamAux) : (s.setAux c x).mcs = s.mcs := rfl
@[simp] theorem State.setAux_store (s : State) (c : Nat) (x : StreamAux) : (s.setAux c x).store = s.store := rfl
@[simp] theorem State.setAux_qe (s : State) (c : Nat) (x : StreamAux) : (s.setAux c x).qe = s.qe := rfl
@[simp] theorem State.setAux_mem (s : State) (c : Nat) (x : StreamAux) : (s.setAux c x).mem = s.mem := rfl
@[simp] theorem State.setAux_hanks (s : State) (c : Nat) (x : StreamAux) : (s.setAux c x).hanks = s.hanks := rfl
@[simp] theorem State.setAux_hbms (s : State) (c : Nat) (x : StreamAux) : (s.setAux c x).hbms = s.hbms := rfl
@[simp] theorem State.setAux_rsv (s : State) (c : Nat) (x : StreamAux) : (s.setAux c x).rsv = s.rsv := rfl
@[simp] theorem State.setAux_locks (s : State) (c : Nat) (x : StreamAux) : (s.setAux c x).locks = s.locks := rfl
@[simp] theorem State.setAux_parts (s : State) (c : Nat) (x : StreamAux) : (s.setAux c x).parts = s.parts := rfl
@[simp] theorem State.setAux_granOwn (s : State) (c : Nat) (x : StreamAux) : (s.setAux c x).granOwn = s.granOwn := rfl
@[simp] theorem State.setAux_granNext (s : State) (c : Nat) (x : StreamAux) : (s.setAux c x).granNext = s.granNext := rfl
@[simp] theorem State.setAux_posMap (s : State) (c : Nat) (x : StreamAux) : (s.setAux c x).posMap = s.posMap := rfl
@[simp] theorem State.setAux_rings (s : State) (c : Nat) (x : StreamAux) : (s.setAux c x).rings = s.rings := rfl
@[simp] theorem State.setAux_sent (s : State) (c : Nat) (x : StreamAux) : (s.setAux c x).sent = s.sent := rfl
@[simp] theorem State.setAux_resp (s : State) (c : Nat) (x : StreamAux) : (s.setAux c x).resp = s.resp := rfl
@[simp] theorem State.setAux_node (s : State) (c : Nat) (x : StreamAux) : (s.setAux c x).node = s.node := rfl
@[simp] theorem State.setAux_hbmReqs (s : State) (c : Nat) (x : StreamAux) : (s.setAux c x).hbmReqs = s.hbmReqs := rfl
@[simp] theorem State.setAux_traceOut (s : State) (c : Nat) (x : StreamAux) : (s.setAux c x).traceOut = s.traceOut := rfl
@[simp] theorem State.setAux_dict (s : State) (c : Nat) (x : StreamAux) : (s.setAux c x).dict = s.dict := rfl
@[simp] theorem State.setAux_doms (s : State) (c : Nat) (x : StreamAux) : (s.setAux c x).doms = s.doms := rfl
@[simp] theorem State.setAux_selects (s : State) (c : Nat) (x : StreamAux) : (s.setAux c x).selects = s.selects := rfl
@[simp] theorem State.setAux_prickUnits (s : State) (c : Nat) (x : StreamAux) : (s.setAux c x).prickUnits = s.prickUnits := rfl
@[simp] theorem State.setAux_cards (s : State) (c : Nat) (x : StreamAux) : (s.setAux c x).cards = s.cards := rfl
@[simp] theorem State.setAux_shuttles (s : State) (c : Nat) (x : StreamAux) : (s.setAux c x).shuttles = s.shuttles := rfl
@[simp] theorem State.setAux_egress (s : State) (c : Nat) (x : StreamAux) : (s.setAux c x).egress = s.egress := rfl
@[simp] theorem State.setAux_timers (s : State) (c : Nat) (x : StreamAux) : (s.setAux c x).timers = s.timers := rfl
@[simp] theorem State.setAux_mailboxes (s : State) (c : Nat) (x : StreamAux) : (s.setAux c x).mailboxes = s.mailboxes := rfl
@[simp] theorem State.setAux_hostReads (s : State) (c : Nat) (x : StreamAux) : (s.setAux c x).hostReads = s.hostReads := rfl
@[simp] theorem State.setAux_hdms (s : State) (c : Nat) (x : StreamAux) : (s.setAux c x).hdms = s.hdms := rfl
@[simp] theorem State.setAux_cxlCache (s : State) (c : Nat) (x : StreamAux) : (s.setAux c x).cxlCache = s.cxlCache := rfl
@[simp] theorem State.setAux_ats (s : State) (c : Nat) (x : StreamAux) : (s.setAux c x).ats = s.ats := rfl
@[simp] theorem State.setAux_aer (s : State) (c : Nat) (x : StreamAux) : (s.setAux c x).aer = s.aer := rfl
@[simp] theorem State.setAux_mgmt (s : State) (c : Nat) (x : StreamAux) : (s.setAux c x).mgmt = s.mgmt := rfl
@[simp] theorem State.setAux_rst (s : State) (c : Nat) (x : StreamAux) : (s.setAux c x).rst = s.rst := rfl

/-! ### setCard -/

@[simp] theorem State.setCard_pending (s : State) (k : Nat) (x : Cards) : (s.setCard k x).pending = s.pending := rfl
@[simp] theorem State.setCard_clock (s : State) (k : Nat) (x : Cards) : (s.setCard k x).clock = s.clock := rfl
@[simp] theorem State.setCard_time (s : State) (k : Nat) (x : Cards) : (s.setCard k x).time = s.time := rfl
@[simp] theorem State.setCard_cores (s : State) (k : Nat) (x : Cards) : (s.setCard k x).cores = s.cores := rfl
@[simp] theorem State.setCard_seqrs (s : State) (k : Nat) (x : Cards) : (s.setCard k x).seqrs = s.seqrs := rfl
@[simp] theorem State.setCard_checks (s : State) (k : Nat) (x : Cards) : (s.setCard k x).checks = s.checks := rfl
@[simp] theorem State.setCard_checkCtls (s : State) (k : Nat) (x : Cards) : (s.setCard k x).checkCtls = s.checkCtls := rfl
@[simp] theorem State.setCard_disps (s : State) (k : Nat) (x : Cards) : (s.setCard k x).disps = s.disps := rfl
@[simp] theorem State.setCard_l1s (s : State) (k : Nat) (x : Cards) : (s.setCard k x).l1s = s.l1s := rfl
@[simp] theorem State.setCard_l2 (s : State) (k : Nat) (x : Cards) : (s.setCard k x).l2 = s.l2 := rfl
@[simp] theorem State.setCard_msix (s : State) (k : Nat) (x : Cards) : (s.setCard k x).msix = s.msix := rfl
@[simp] theorem State.setCard_msixFns (s : State) (k : Nat) (x : Cards) : (s.setCard k x).msixFns = s.msixFns := rfl
@[simp] theorem State.setCard_mcs (s : State) (k : Nat) (x : Cards) : (s.setCard k x).mcs = s.mcs := rfl
@[simp] theorem State.setCard_store (s : State) (k : Nat) (x : Cards) : (s.setCard k x).store = s.store := rfl
@[simp] theorem State.setCard_streams (s : State) (k : Nat) (x : Cards) : (s.setCard k x).streams = s.streams := rfl
@[simp] theorem State.setCard_qe (s : State) (k : Nat) (x : Cards) : (s.setCard k x).qe = s.qe := rfl
@[simp] theorem State.setCard_mem (s : State) (k : Nat) (x : Cards) : (s.setCard k x).mem = s.mem := rfl
@[simp] theorem State.setCard_hanks (s : State) (k : Nat) (x : Cards) : (s.setCard k x).hanks = s.hanks := rfl
@[simp] theorem State.setCard_hbms (s : State) (k : Nat) (x : Cards) : (s.setCard k x).hbms = s.hbms := rfl
@[simp] theorem State.setCard_rsv (s : State) (k : Nat) (x : Cards) : (s.setCard k x).rsv = s.rsv := rfl
@[simp] theorem State.setCard_locks (s : State) (k : Nat) (x : Cards) : (s.setCard k x).locks = s.locks := rfl
@[simp] theorem State.setCard_parts (s : State) (k : Nat) (x : Cards) : (s.setCard k x).parts = s.parts := rfl
@[simp] theorem State.setCard_granOwn (s : State) (k : Nat) (x : Cards) : (s.setCard k x).granOwn = s.granOwn := rfl
@[simp] theorem State.setCard_granNext (s : State) (k : Nat) (x : Cards) : (s.setCard k x).granNext = s.granNext := rfl
@[simp] theorem State.setCard_posMap (s : State) (k : Nat) (x : Cards) : (s.setCard k x).posMap = s.posMap := rfl
@[simp] theorem State.setCard_rings (s : State) (k : Nat) (x : Cards) : (s.setCard k x).rings = s.rings := rfl
@[simp] theorem State.setCard_sent (s : State) (k : Nat) (x : Cards) : (s.setCard k x).sent = s.sent := rfl
@[simp] theorem State.setCard_resp (s : State) (k : Nat) (x : Cards) : (s.setCard k x).resp = s.resp := rfl
@[simp] theorem State.setCard_node (s : State) (k : Nat) (x : Cards) : (s.setCard k x).node = s.node := rfl
@[simp] theorem State.setCard_hbmReqs (s : State) (k : Nat) (x : Cards) : (s.setCard k x).hbmReqs = s.hbmReqs := rfl
@[simp] theorem State.setCard_traceOut (s : State) (k : Nat) (x : Cards) : (s.setCard k x).traceOut = s.traceOut := rfl
@[simp] theorem State.setCard_dict (s : State) (k : Nat) (x : Cards) : (s.setCard k x).dict = s.dict := rfl
@[simp] theorem State.setCard_doms (s : State) (k : Nat) (x : Cards) : (s.setCard k x).doms = s.doms := rfl
@[simp] theorem State.setCard_selects (s : State) (k : Nat) (x : Cards) : (s.setCard k x).selects = s.selects := rfl
@[simp] theorem State.setCard_prickUnits (s : State) (k : Nat) (x : Cards) : (s.setCard k x).prickUnits = s.prickUnits := rfl
@[simp] theorem State.setCard_shuttles (s : State) (k : Nat) (x : Cards) : (s.setCard k x).shuttles = s.shuttles := rfl
@[simp] theorem State.setCard_egress (s : State) (k : Nat) (x : Cards) : (s.setCard k x).egress = s.egress := rfl
@[simp] theorem State.setCard_timers (s : State) (k : Nat) (x : Cards) : (s.setCard k x).timers = s.timers := rfl
@[simp] theorem State.setCard_mailboxes (s : State) (k : Nat) (x : Cards) : (s.setCard k x).mailboxes = s.mailboxes := rfl
@[simp] theorem State.setCard_hostReads (s : State) (k : Nat) (x : Cards) : (s.setCard k x).hostReads = s.hostReads := rfl
@[simp] theorem State.setCard_hdms (s : State) (k : Nat) (x : Cards) : (s.setCard k x).hdms = s.hdms := rfl
@[simp] theorem State.setCard_cxlCache (s : State) (k : Nat) (x : Cards) : (s.setCard k x).cxlCache = s.cxlCache := rfl
@[simp] theorem State.setCard_ats (s : State) (k : Nat) (x : Cards) : (s.setCard k x).ats = s.ats := rfl
@[simp] theorem State.setCard_aer (s : State) (k : Nat) (x : Cards) : (s.setCard k x).aer = s.aer := rfl
@[simp] theorem State.setCard_mgmt (s : State) (k : Nat) (x : Cards) : (s.setCard k x).mgmt = s.mgmt := rfl
@[simp] theorem State.setCard_rst (s : State) (k : Nat) (x : Cards) : (s.setCard k x).rst = s.rst := rfl

/-! ### setShuttle -/

@[simp] theorem State.setShuttle_pending (s : State) (k : Nat) (x : Shuttle) : (s.setShuttle k x).pending = s.pending := rfl
@[simp] theorem State.setShuttle_clock (s : State) (k : Nat) (x : Shuttle) : (s.setShuttle k x).clock = s.clock := rfl
@[simp] theorem State.setShuttle_time (s : State) (k : Nat) (x : Shuttle) : (s.setShuttle k x).time = s.time := rfl
@[simp] theorem State.setShuttle_cores (s : State) (k : Nat) (x : Shuttle) : (s.setShuttle k x).cores = s.cores := rfl
@[simp] theorem State.setShuttle_seqrs (s : State) (k : Nat) (x : Shuttle) : (s.setShuttle k x).seqrs = s.seqrs := rfl
@[simp] theorem State.setShuttle_checks (s : State) (k : Nat) (x : Shuttle) : (s.setShuttle k x).checks = s.checks := rfl
@[simp] theorem State.setShuttle_checkCtls (s : State) (k : Nat) (x : Shuttle) : (s.setShuttle k x).checkCtls = s.checkCtls := rfl
@[simp] theorem State.setShuttle_disps (s : State) (k : Nat) (x : Shuttle) : (s.setShuttle k x).disps = s.disps := rfl
@[simp] theorem State.setShuttle_l1s (s : State) (k : Nat) (x : Shuttle) : (s.setShuttle k x).l1s = s.l1s := rfl
@[simp] theorem State.setShuttle_l2 (s : State) (k : Nat) (x : Shuttle) : (s.setShuttle k x).l2 = s.l2 := rfl
@[simp] theorem State.setShuttle_msix (s : State) (k : Nat) (x : Shuttle) : (s.setShuttle k x).msix = s.msix := rfl
@[simp] theorem State.setShuttle_msixFns (s : State) (k : Nat) (x : Shuttle) : (s.setShuttle k x).msixFns = s.msixFns := rfl
@[simp] theorem State.setShuttle_mcs (s : State) (k : Nat) (x : Shuttle) : (s.setShuttle k x).mcs = s.mcs := rfl
@[simp] theorem State.setShuttle_store (s : State) (k : Nat) (x : Shuttle) : (s.setShuttle k x).store = s.store := rfl
@[simp] theorem State.setShuttle_streams (s : State) (k : Nat) (x : Shuttle) : (s.setShuttle k x).streams = s.streams := rfl
@[simp] theorem State.setShuttle_qe (s : State) (k : Nat) (x : Shuttle) : (s.setShuttle k x).qe = s.qe := rfl
@[simp] theorem State.setShuttle_mem (s : State) (k : Nat) (x : Shuttle) : (s.setShuttle k x).mem = s.mem := rfl
@[simp] theorem State.setShuttle_hanks (s : State) (k : Nat) (x : Shuttle) : (s.setShuttle k x).hanks = s.hanks := rfl
@[simp] theorem State.setShuttle_hbms (s : State) (k : Nat) (x : Shuttle) : (s.setShuttle k x).hbms = s.hbms := rfl
@[simp] theorem State.setShuttle_rsv (s : State) (k : Nat) (x : Shuttle) : (s.setShuttle k x).rsv = s.rsv := rfl
@[simp] theorem State.setShuttle_locks (s : State) (k : Nat) (x : Shuttle) : (s.setShuttle k x).locks = s.locks := rfl
@[simp] theorem State.setShuttle_parts (s : State) (k : Nat) (x : Shuttle) : (s.setShuttle k x).parts = s.parts := rfl
@[simp] theorem State.setShuttle_granOwn (s : State) (k : Nat) (x : Shuttle) : (s.setShuttle k x).granOwn = s.granOwn := rfl
@[simp] theorem State.setShuttle_granNext (s : State) (k : Nat) (x : Shuttle) : (s.setShuttle k x).granNext = s.granNext := rfl
@[simp] theorem State.setShuttle_posMap (s : State) (k : Nat) (x : Shuttle) : (s.setShuttle k x).posMap = s.posMap := rfl
@[simp] theorem State.setShuttle_rings (s : State) (k : Nat) (x : Shuttle) : (s.setShuttle k x).rings = s.rings := rfl
@[simp] theorem State.setShuttle_sent (s : State) (k : Nat) (x : Shuttle) : (s.setShuttle k x).sent = s.sent := rfl
@[simp] theorem State.setShuttle_resp (s : State) (k : Nat) (x : Shuttle) : (s.setShuttle k x).resp = s.resp := rfl
@[simp] theorem State.setShuttle_node (s : State) (k : Nat) (x : Shuttle) : (s.setShuttle k x).node = s.node := rfl
@[simp] theorem State.setShuttle_hbmReqs (s : State) (k : Nat) (x : Shuttle) : (s.setShuttle k x).hbmReqs = s.hbmReqs := rfl
@[simp] theorem State.setShuttle_traceOut (s : State) (k : Nat) (x : Shuttle) : (s.setShuttle k x).traceOut = s.traceOut := rfl
@[simp] theorem State.setShuttle_dict (s : State) (k : Nat) (x : Shuttle) : (s.setShuttle k x).dict = s.dict := rfl
@[simp] theorem State.setShuttle_doms (s : State) (k : Nat) (x : Shuttle) : (s.setShuttle k x).doms = s.doms := rfl
@[simp] theorem State.setShuttle_selects (s : State) (k : Nat) (x : Shuttle) : (s.setShuttle k x).selects = s.selects := rfl
@[simp] theorem State.setShuttle_prickUnits (s : State) (k : Nat) (x : Shuttle) : (s.setShuttle k x).prickUnits = s.prickUnits := rfl
@[simp] theorem State.setShuttle_cards (s : State) (k : Nat) (x : Shuttle) : (s.setShuttle k x).cards = s.cards := rfl
@[simp] theorem State.setShuttle_egress (s : State) (k : Nat) (x : Shuttle) : (s.setShuttle k x).egress = s.egress := rfl
@[simp] theorem State.setShuttle_timers (s : State) (k : Nat) (x : Shuttle) : (s.setShuttle k x).timers = s.timers := rfl
@[simp] theorem State.setShuttle_mailboxes (s : State) (k : Nat) (x : Shuttle) : (s.setShuttle k x).mailboxes = s.mailboxes := rfl
@[simp] theorem State.setShuttle_hostReads (s : State) (k : Nat) (x : Shuttle) : (s.setShuttle k x).hostReads = s.hostReads := rfl
@[simp] theorem State.setShuttle_hdms (s : State) (k : Nat) (x : Shuttle) : (s.setShuttle k x).hdms = s.hdms := rfl
@[simp] theorem State.setShuttle_cxlCache (s : State) (k : Nat) (x : Shuttle) : (s.setShuttle k x).cxlCache = s.cxlCache := rfl
@[simp] theorem State.setShuttle_ats (s : State) (k : Nat) (x : Shuttle) : (s.setShuttle k x).ats = s.ats := rfl
@[simp] theorem State.setShuttle_aer (s : State) (k : Nat) (x : Shuttle) : (s.setShuttle k x).aer = s.aer := rfl
@[simp] theorem State.setShuttle_mgmt (s : State) (k : Nat) (x : Shuttle) : (s.setShuttle k x).mgmt = s.mgmt := rfl
@[simp] theorem State.setShuttle_rst (s : State) (k : Nat) (x : Shuttle) : (s.setShuttle k x).rst = s.rst := rfl

/-! ### setPort -/

@[simp] theorem State.setPort_pending (s : State) (n : Nat) (x : Egress) : (s.setPort n x).pending = s.pending := rfl
@[simp] theorem State.setPort_clock (s : State) (n : Nat) (x : Egress) : (s.setPort n x).clock = s.clock := rfl
@[simp] theorem State.setPort_time (s : State) (n : Nat) (x : Egress) : (s.setPort n x).time = s.time := rfl
@[simp] theorem State.setPort_cores (s : State) (n : Nat) (x : Egress) : (s.setPort n x).cores = s.cores := rfl
@[simp] theorem State.setPort_seqrs (s : State) (n : Nat) (x : Egress) : (s.setPort n x).seqrs = s.seqrs := rfl
@[simp] theorem State.setPort_checks (s : State) (n : Nat) (x : Egress) : (s.setPort n x).checks = s.checks := rfl
@[simp] theorem State.setPort_checkCtls (s : State) (n : Nat) (x : Egress) : (s.setPort n x).checkCtls = s.checkCtls := rfl
@[simp] theorem State.setPort_disps (s : State) (n : Nat) (x : Egress) : (s.setPort n x).disps = s.disps := rfl
@[simp] theorem State.setPort_l1s (s : State) (n : Nat) (x : Egress) : (s.setPort n x).l1s = s.l1s := rfl
@[simp] theorem State.setPort_l2 (s : State) (n : Nat) (x : Egress) : (s.setPort n x).l2 = s.l2 := rfl
@[simp] theorem State.setPort_msix (s : State) (n : Nat) (x : Egress) : (s.setPort n x).msix = s.msix := rfl
@[simp] theorem State.setPort_msixFns (s : State) (n : Nat) (x : Egress) : (s.setPort n x).msixFns = s.msixFns := rfl
@[simp] theorem State.setPort_mcs (s : State) (n : Nat) (x : Egress) : (s.setPort n x).mcs = s.mcs := rfl
@[simp] theorem State.setPort_store (s : State) (n : Nat) (x : Egress) : (s.setPort n x).store = s.store := rfl
@[simp] theorem State.setPort_streams (s : State) (n : Nat) (x : Egress) : (s.setPort n x).streams = s.streams := rfl
@[simp] theorem State.setPort_qe (s : State) (n : Nat) (x : Egress) : (s.setPort n x).qe = s.qe := rfl
@[simp] theorem State.setPort_mem (s : State) (n : Nat) (x : Egress) : (s.setPort n x).mem = s.mem := rfl
@[simp] theorem State.setPort_hanks (s : State) (n : Nat) (x : Egress) : (s.setPort n x).hanks = s.hanks := rfl
@[simp] theorem State.setPort_hbms (s : State) (n : Nat) (x : Egress) : (s.setPort n x).hbms = s.hbms := rfl
@[simp] theorem State.setPort_rsv (s : State) (n : Nat) (x : Egress) : (s.setPort n x).rsv = s.rsv := rfl
@[simp] theorem State.setPort_locks (s : State) (n : Nat) (x : Egress) : (s.setPort n x).locks = s.locks := rfl
@[simp] theorem State.setPort_parts (s : State) (n : Nat) (x : Egress) : (s.setPort n x).parts = s.parts := rfl
@[simp] theorem State.setPort_granOwn (s : State) (n : Nat) (x : Egress) : (s.setPort n x).granOwn = s.granOwn := rfl
@[simp] theorem State.setPort_granNext (s : State) (n : Nat) (x : Egress) : (s.setPort n x).granNext = s.granNext := rfl
@[simp] theorem State.setPort_posMap (s : State) (n : Nat) (x : Egress) : (s.setPort n x).posMap = s.posMap := rfl
@[simp] theorem State.setPort_rings (s : State) (n : Nat) (x : Egress) : (s.setPort n x).rings = s.rings := rfl
@[simp] theorem State.setPort_sent (s : State) (n : Nat) (x : Egress) : (s.setPort n x).sent = s.sent := rfl
@[simp] theorem State.setPort_resp (s : State) (n : Nat) (x : Egress) : (s.setPort n x).resp = s.resp := rfl
@[simp] theorem State.setPort_node (s : State) (n : Nat) (x : Egress) : (s.setPort n x).node = s.node := rfl
@[simp] theorem State.setPort_hbmReqs (s : State) (n : Nat) (x : Egress) : (s.setPort n x).hbmReqs = s.hbmReqs := rfl
@[simp] theorem State.setPort_traceOut (s : State) (n : Nat) (x : Egress) : (s.setPort n x).traceOut = s.traceOut := rfl
@[simp] theorem State.setPort_dict (s : State) (n : Nat) (x : Egress) : (s.setPort n x).dict = s.dict := rfl
@[simp] theorem State.setPort_doms (s : State) (n : Nat) (x : Egress) : (s.setPort n x).doms = s.doms := rfl
@[simp] theorem State.setPort_selects (s : State) (n : Nat) (x : Egress) : (s.setPort n x).selects = s.selects := rfl
@[simp] theorem State.setPort_prickUnits (s : State) (n : Nat) (x : Egress) : (s.setPort n x).prickUnits = s.prickUnits := rfl
@[simp] theorem State.setPort_cards (s : State) (n : Nat) (x : Egress) : (s.setPort n x).cards = s.cards := rfl
@[simp] theorem State.setPort_shuttles (s : State) (n : Nat) (x : Egress) : (s.setPort n x).shuttles = s.shuttles := rfl
@[simp] theorem State.setPort_timers (s : State) (n : Nat) (x : Egress) : (s.setPort n x).timers = s.timers := rfl
@[simp] theorem State.setPort_mailboxes (s : State) (n : Nat) (x : Egress) : (s.setPort n x).mailboxes = s.mailboxes := rfl
@[simp] theorem State.setPort_hostReads (s : State) (n : Nat) (x : Egress) : (s.setPort n x).hostReads = s.hostReads := rfl
@[simp] theorem State.setPort_hdms (s : State) (n : Nat) (x : Egress) : (s.setPort n x).hdms = s.hdms := rfl
@[simp] theorem State.setPort_cxlCache (s : State) (n : Nat) (x : Egress) : (s.setPort n x).cxlCache = s.cxlCache := rfl
@[simp] theorem State.setPort_ats (s : State) (n : Nat) (x : Egress) : (s.setPort n x).ats = s.ats := rfl
@[simp] theorem State.setPort_aer (s : State) (n : Nat) (x : Egress) : (s.setPort n x).aer = s.aer := rfl
@[simp] theorem State.setPort_mgmt (s : State) (n : Nat) (x : Egress) : (s.setPort n x).mgmt = s.mgmt := rfl
@[simp] theorem State.setPort_rst (s : State) (n : Nat) (x : Egress) : (s.setPort n x).rst = s.rst := rfl

/-! ### setPos -/

@[simp] theorem State.setPos_pending (s : State) (w : Nat) (x : Pos) : (s.setPos w x).pending = s.pending := rfl
@[simp] theorem State.setPos_clock (s : State) (w : Nat) (x : Pos) : (s.setPos w x).clock = s.clock := rfl
@[simp] theorem State.setPos_time (s : State) (w : Nat) (x : Pos) : (s.setPos w x).time = s.time := rfl
@[simp] theorem State.setPos_cores (s : State) (w : Nat) (x : Pos) : (s.setPos w x).cores = s.cores := rfl
@[simp] theorem State.setPos_seqrs (s : State) (w : Nat) (x : Pos) : (s.setPos w x).seqrs = s.seqrs := rfl
@[simp] theorem State.setPos_checks (s : State) (w : Nat) (x : Pos) : (s.setPos w x).checks = s.checks := rfl
@[simp] theorem State.setPos_checkCtls (s : State) (w : Nat) (x : Pos) : (s.setPos w x).checkCtls = s.checkCtls := rfl
@[simp] theorem State.setPos_disps (s : State) (w : Nat) (x : Pos) : (s.setPos w x).disps = s.disps := rfl
@[simp] theorem State.setPos_l1s (s : State) (w : Nat) (x : Pos) : (s.setPos w x).l1s = s.l1s := rfl
@[simp] theorem State.setPos_l2 (s : State) (w : Nat) (x : Pos) : (s.setPos w x).l2 = s.l2 := rfl
@[simp] theorem State.setPos_msix (s : State) (w : Nat) (x : Pos) : (s.setPos w x).msix = s.msix := rfl
@[simp] theorem State.setPos_msixFns (s : State) (w : Nat) (x : Pos) : (s.setPos w x).msixFns = s.msixFns := rfl
@[simp] theorem State.setPos_mcs (s : State) (w : Nat) (x : Pos) : (s.setPos w x).mcs = s.mcs := rfl
@[simp] theorem State.setPos_store (s : State) (w : Nat) (x : Pos) : (s.setPos w x).store = s.store := rfl
@[simp] theorem State.setPos_streams (s : State) (w : Nat) (x : Pos) : (s.setPos w x).streams = s.streams := rfl
@[simp] theorem State.setPos_qe (s : State) (w : Nat) (x : Pos) : (s.setPos w x).qe = s.qe := rfl
@[simp] theorem State.setPos_mem (s : State) (w : Nat) (x : Pos) : (s.setPos w x).mem = s.mem := rfl
@[simp] theorem State.setPos_hanks (s : State) (w : Nat) (x : Pos) : (s.setPos w x).hanks = s.hanks := rfl
@[simp] theorem State.setPos_hbms (s : State) (w : Nat) (x : Pos) : (s.setPos w x).hbms = s.hbms := rfl
@[simp] theorem State.setPos_rsv (s : State) (w : Nat) (x : Pos) : (s.setPos w x).rsv = s.rsv := rfl
@[simp] theorem State.setPos_locks (s : State) (w : Nat) (x : Pos) : (s.setPos w x).locks = s.locks := rfl
@[simp] theorem State.setPos_parts (s : State) (w : Nat) (x : Pos) : (s.setPos w x).parts = s.parts := rfl
@[simp] theorem State.setPos_granOwn (s : State) (w : Nat) (x : Pos) : (s.setPos w x).granOwn = s.granOwn := rfl
@[simp] theorem State.setPos_granNext (s : State) (w : Nat) (x : Pos) : (s.setPos w x).granNext = s.granNext := rfl
@[simp] theorem State.setPos_posMap (s : State) (w : Nat) (x : Pos) : (s.setPos w x).posMap = s.posMap := rfl
@[simp] theorem State.setPos_rings (s : State) (w : Nat) (x : Pos) : (s.setPos w x).rings = s.rings := rfl
@[simp] theorem State.setPos_sent (s : State) (w : Nat) (x : Pos) : (s.setPos w x).sent = s.sent := rfl
@[simp] theorem State.setPos_resp (s : State) (w : Nat) (x : Pos) : (s.setPos w x).resp = s.resp := rfl
@[simp] theorem State.setPos_node (s : State) (w : Nat) (x : Pos) : (s.setPos w x).node = s.node := rfl
@[simp] theorem State.setPos_hbmReqs (s : State) (w : Nat) (x : Pos) : (s.setPos w x).hbmReqs = s.hbmReqs := rfl
@[simp] theorem State.setPos_traceOut (s : State) (w : Nat) (x : Pos) : (s.setPos w x).traceOut = s.traceOut := rfl
@[simp] theorem State.setPos_dict (s : State) (w : Nat) (x : Pos) : (s.setPos w x).dict = s.dict := rfl
@[simp] theorem State.setPos_doms (s : State) (w : Nat) (x : Pos) : (s.setPos w x).doms = s.doms := rfl
@[simp] theorem State.setPos_selects (s : State) (w : Nat) (x : Pos) : (s.setPos w x).selects = s.selects := rfl
@[simp] theorem State.setPos_prickUnits (s : State) (w : Nat) (x : Pos) : (s.setPos w x).prickUnits = s.prickUnits := rfl
@[simp] theorem State.setPos_cards (s : State) (w : Nat) (x : Pos) : (s.setPos w x).cards = s.cards := rfl
@[simp] theorem State.setPos_shuttles (s : State) (w : Nat) (x : Pos) : (s.setPos w x).shuttles = s.shuttles := rfl
@[simp] theorem State.setPos_egress (s : State) (w : Nat) (x : Pos) : (s.setPos w x).egress = s.egress := rfl
@[simp] theorem State.setPos_timers (s : State) (w : Nat) (x : Pos) : (s.setPos w x).timers = s.timers := rfl
@[simp] theorem State.setPos_mailboxes (s : State) (w : Nat) (x : Pos) : (s.setPos w x).mailboxes = s.mailboxes := rfl
@[simp] theorem State.setPos_hostReads (s : State) (w : Nat) (x : Pos) : (s.setPos w x).hostReads = s.hostReads := rfl
@[simp] theorem State.setPos_hdms (s : State) (w : Nat) (x : Pos) : (s.setPos w x).hdms = s.hdms := rfl
@[simp] theorem State.setPos_cxlCache (s : State) (w : Nat) (x : Pos) : (s.setPos w x).cxlCache = s.cxlCache := rfl
@[simp] theorem State.setPos_ats (s : State) (w : Nat) (x : Pos) : (s.setPos w x).ats = s.ats := rfl
@[simp] theorem State.setPos_aer (s : State) (w : Nat) (x : Pos) : (s.setPos w x).aer = s.aer := rfl
@[simp] theorem State.setPos_mgmt (s : State) (w : Nat) (x : Pos) : (s.setPos w x).mgmt = s.mgmt := rfl

/-! ### setRing -/

@[simp] theorem State.setRing_pending (s : State) (p r : Nat) (x : Ring) : (s.setRing p r x).pending = s.pending := rfl
@[simp] theorem State.setRing_clock (s : State) (p r : Nat) (x : Ring) : (s.setRing p r x).clock = s.clock := rfl
@[simp] theorem State.setRing_time (s : State) (p r : Nat) (x : Ring) : (s.setRing p r x).time = s.time := rfl
@[simp] theorem State.setRing_cores (s : State) (p r : Nat) (x : Ring) : (s.setRing p r x).cores = s.cores := rfl
@[simp] theorem State.setRing_seqrs (s : State) (p r : Nat) (x : Ring) : (s.setRing p r x).seqrs = s.seqrs := rfl
@[simp] theorem State.setRing_checks (s : State) (p r : Nat) (x : Ring) : (s.setRing p r x).checks = s.checks := rfl
@[simp] theorem State.setRing_checkCtls (s : State) (p r : Nat) (x : Ring) : (s.setRing p r x).checkCtls = s.checkCtls := rfl
@[simp] theorem State.setRing_disps (s : State) (p r : Nat) (x : Ring) : (s.setRing p r x).disps = s.disps := rfl
@[simp] theorem State.setRing_l1s (s : State) (p r : Nat) (x : Ring) : (s.setRing p r x).l1s = s.l1s := rfl
@[simp] theorem State.setRing_l2 (s : State) (p r : Nat) (x : Ring) : (s.setRing p r x).l2 = s.l2 := rfl
@[simp] theorem State.setRing_msix (s : State) (p r : Nat) (x : Ring) : (s.setRing p r x).msix = s.msix := rfl
@[simp] theorem State.setRing_msixFns (s : State) (p r : Nat) (x : Ring) : (s.setRing p r x).msixFns = s.msixFns := rfl
@[simp] theorem State.setRing_mcs (s : State) (p r : Nat) (x : Ring) : (s.setRing p r x).mcs = s.mcs := rfl
@[simp] theorem State.setRing_store (s : State) (p r : Nat) (x : Ring) : (s.setRing p r x).store = s.store := rfl
@[simp] theorem State.setRing_streams (s : State) (p r : Nat) (x : Ring) : (s.setRing p r x).streams = s.streams := rfl
@[simp] theorem State.setRing_qe (s : State) (p r : Nat) (x : Ring) : (s.setRing p r x).qe = s.qe := rfl
@[simp] theorem State.setRing_mem (s : State) (p r : Nat) (x : Ring) : (s.setRing p r x).mem = s.mem := rfl
@[simp] theorem State.setRing_hanks (s : State) (p r : Nat) (x : Ring) : (s.setRing p r x).hanks = s.hanks := rfl
@[simp] theorem State.setRing_hbms (s : State) (p r : Nat) (x : Ring) : (s.setRing p r x).hbms = s.hbms := rfl
@[simp] theorem State.setRing_rsv (s : State) (p r : Nat) (x : Ring) : (s.setRing p r x).rsv = s.rsv := rfl
@[simp] theorem State.setRing_locks (s : State) (p r : Nat) (x : Ring) : (s.setRing p r x).locks = s.locks := rfl
@[simp] theorem State.setRing_parts (s : State) (p r : Nat) (x : Ring) : (s.setRing p r x).parts = s.parts := rfl
@[simp] theorem State.setRing_granOwn (s : State) (p r : Nat) (x : Ring) : (s.setRing p r x).granOwn = s.granOwn := rfl
@[simp] theorem State.setRing_granNext (s : State) (p r : Nat) (x : Ring) : (s.setRing p r x).granNext = s.granNext := rfl
@[simp] theorem State.setRing_posMap (s : State) (p r : Nat) (x : Ring) : (s.setRing p r x).posMap = s.posMap := rfl
@[simp] theorem State.setRing_sent (s : State) (p r : Nat) (x : Ring) : (s.setRing p r x).sent = s.sent := rfl
@[simp] theorem State.setRing_resp (s : State) (p r : Nat) (x : Ring) : (s.setRing p r x).resp = s.resp := rfl
@[simp] theorem State.setRing_node (s : State) (p r : Nat) (x : Ring) : (s.setRing p r x).node = s.node := rfl
@[simp] theorem State.setRing_hbmReqs (s : State) (p r : Nat) (x : Ring) : (s.setRing p r x).hbmReqs = s.hbmReqs := rfl
@[simp] theorem State.setRing_traceOut (s : State) (p r : Nat) (x : Ring) : (s.setRing p r x).traceOut = s.traceOut := rfl
@[simp] theorem State.setRing_dict (s : State) (p r : Nat) (x : Ring) : (s.setRing p r x).dict = s.dict := rfl
@[simp] theorem State.setRing_doms (s : State) (p r : Nat) (x : Ring) : (s.setRing p r x).doms = s.doms := rfl
@[simp] theorem State.setRing_selects (s : State) (p r : Nat) (x : Ring) : (s.setRing p r x).selects = s.selects := rfl
@[simp] theorem State.setRing_prickUnits (s : State) (p r : Nat) (x : Ring) : (s.setRing p r x).prickUnits = s.prickUnits := rfl
@[simp] theorem State.setRing_cards (s : State) (p r : Nat) (x : Ring) : (s.setRing p r x).cards = s.cards := rfl
@[simp] theorem State.setRing_shuttles (s : State) (p r : Nat) (x : Ring) : (s.setRing p r x).shuttles = s.shuttles := rfl
@[simp] theorem State.setRing_egress (s : State) (p r : Nat) (x : Ring) : (s.setRing p r x).egress = s.egress := rfl
@[simp] theorem State.setRing_timers (s : State) (p r : Nat) (x : Ring) : (s.setRing p r x).timers = s.timers := rfl
@[simp] theorem State.setRing_mailboxes (s : State) (p r : Nat) (x : Ring) : (s.setRing p r x).mailboxes = s.mailboxes := rfl
@[simp] theorem State.setRing_hostReads (s : State) (p r : Nat) (x : Ring) : (s.setRing p r x).hostReads = s.hostReads := rfl
@[simp] theorem State.setRing_hdms (s : State) (p r : Nat) (x : Ring) : (s.setRing p r x).hdms = s.hdms := rfl
@[simp] theorem State.setRing_cxlCache (s : State) (p r : Nat) (x : Ring) : (s.setRing p r x).cxlCache = s.cxlCache := rfl
@[simp] theorem State.setRing_ats (s : State) (p r : Nat) (x : Ring) : (s.setRing p r x).ats = s.ats := rfl
@[simp] theorem State.setRing_aer (s : State) (p r : Nat) (x : Ring) : (s.setRing p r x).aer = s.aer := rfl
@[simp] theorem State.setRing_mgmt (s : State) (p r : Nat) (x : Ring) : (s.setRing p r x).mgmt = s.mgmt := rfl
@[simp] theorem State.setRing_rst (s : State) (p r : Nat) (x : Ring) : (s.setRing p r x).rst = s.rst := rfl

/-! ### setMsix -/

@[simp] theorem State.setMsix_pending (s : State) (fn vec : Nat) (x : Msix) : (s.setMsix fn vec x).pending = s.pending := rfl
@[simp] theorem State.setMsix_clock (s : State) (fn vec : Nat) (x : Msix) : (s.setMsix fn vec x).clock = s.clock := rfl
@[simp] theorem State.setMsix_time (s : State) (fn vec : Nat) (x : Msix) : (s.setMsix fn vec x).time = s.time := rfl
@[simp] theorem State.setMsix_cores (s : State) (fn vec : Nat) (x : Msix) : (s.setMsix fn vec x).cores = s.cores := rfl
@[simp] theorem State.setMsix_seqrs (s : State) (fn vec : Nat) (x : Msix) : (s.setMsix fn vec x).seqrs = s.seqrs := rfl
@[simp] theorem State.setMsix_checks (s : State) (fn vec : Nat) (x : Msix) : (s.setMsix fn vec x).checks = s.checks := rfl
@[simp] theorem State.setMsix_checkCtls (s : State) (fn vec : Nat) (x : Msix) : (s.setMsix fn vec x).checkCtls = s.checkCtls := rfl
@[simp] theorem State.setMsix_disps (s : State) (fn vec : Nat) (x : Msix) : (s.setMsix fn vec x).disps = s.disps := rfl
@[simp] theorem State.setMsix_l1s (s : State) (fn vec : Nat) (x : Msix) : (s.setMsix fn vec x).l1s = s.l1s := rfl
@[simp] theorem State.setMsix_l2 (s : State) (fn vec : Nat) (x : Msix) : (s.setMsix fn vec x).l2 = s.l2 := rfl
@[simp] theorem State.setMsix_msixFns (s : State) (fn vec : Nat) (x : Msix) : (s.setMsix fn vec x).msixFns = s.msixFns := rfl
@[simp] theorem State.setMsix_mcs (s : State) (fn vec : Nat) (x : Msix) : (s.setMsix fn vec x).mcs = s.mcs := rfl
@[simp] theorem State.setMsix_store (s : State) (fn vec : Nat) (x : Msix) : (s.setMsix fn vec x).store = s.store := rfl
@[simp] theorem State.setMsix_streams (s : State) (fn vec : Nat) (x : Msix) : (s.setMsix fn vec x).streams = s.streams := rfl
@[simp] theorem State.setMsix_qe (s : State) (fn vec : Nat) (x : Msix) : (s.setMsix fn vec x).qe = s.qe := rfl
@[simp] theorem State.setMsix_mem (s : State) (fn vec : Nat) (x : Msix) : (s.setMsix fn vec x).mem = s.mem := rfl
@[simp] theorem State.setMsix_hanks (s : State) (fn vec : Nat) (x : Msix) : (s.setMsix fn vec x).hanks = s.hanks := rfl
@[simp] theorem State.setMsix_hbms (s : State) (fn vec : Nat) (x : Msix) : (s.setMsix fn vec x).hbms = s.hbms := rfl
@[simp] theorem State.setMsix_rsv (s : State) (fn vec : Nat) (x : Msix) : (s.setMsix fn vec x).rsv = s.rsv := rfl
@[simp] theorem State.setMsix_locks (s : State) (fn vec : Nat) (x : Msix) : (s.setMsix fn vec x).locks = s.locks := rfl
@[simp] theorem State.setMsix_parts (s : State) (fn vec : Nat) (x : Msix) : (s.setMsix fn vec x).parts = s.parts := rfl
@[simp] theorem State.setMsix_granOwn (s : State) (fn vec : Nat) (x : Msix) : (s.setMsix fn vec x).granOwn = s.granOwn := rfl
@[simp] theorem State.setMsix_granNext (s : State) (fn vec : Nat) (x : Msix) : (s.setMsix fn vec x).granNext = s.granNext := rfl
@[simp] theorem State.setMsix_posMap (s : State) (fn vec : Nat) (x : Msix) : (s.setMsix fn vec x).posMap = s.posMap := rfl
@[simp] theorem State.setMsix_rings (s : State) (fn vec : Nat) (x : Msix) : (s.setMsix fn vec x).rings = s.rings := rfl
@[simp] theorem State.setMsix_sent (s : State) (fn vec : Nat) (x : Msix) : (s.setMsix fn vec x).sent = s.sent := rfl
@[simp] theorem State.setMsix_resp (s : State) (fn vec : Nat) (x : Msix) : (s.setMsix fn vec x).resp = s.resp := rfl
@[simp] theorem State.setMsix_node (s : State) (fn vec : Nat) (x : Msix) : (s.setMsix fn vec x).node = s.node := rfl
@[simp] theorem State.setMsix_hbmReqs (s : State) (fn vec : Nat) (x : Msix) : (s.setMsix fn vec x).hbmReqs = s.hbmReqs := rfl
@[simp] theorem State.setMsix_traceOut (s : State) (fn vec : Nat) (x : Msix) : (s.setMsix fn vec x).traceOut = s.traceOut := rfl
@[simp] theorem State.setMsix_dict (s : State) (fn vec : Nat) (x : Msix) : (s.setMsix fn vec x).dict = s.dict := rfl
@[simp] theorem State.setMsix_doms (s : State) (fn vec : Nat) (x : Msix) : (s.setMsix fn vec x).doms = s.doms := rfl
@[simp] theorem State.setMsix_selects (s : State) (fn vec : Nat) (x : Msix) : (s.setMsix fn vec x).selects = s.selects := rfl
@[simp] theorem State.setMsix_prickUnits (s : State) (fn vec : Nat) (x : Msix) : (s.setMsix fn vec x).prickUnits = s.prickUnits := rfl
@[simp] theorem State.setMsix_cards (s : State) (fn vec : Nat) (x : Msix) : (s.setMsix fn vec x).cards = s.cards := rfl
@[simp] theorem State.setMsix_shuttles (s : State) (fn vec : Nat) (x : Msix) : (s.setMsix fn vec x).shuttles = s.shuttles := rfl
@[simp] theorem State.setMsix_egress (s : State) (fn vec : Nat) (x : Msix) : (s.setMsix fn vec x).egress = s.egress := rfl
@[simp] theorem State.setMsix_timers (s : State) (fn vec : Nat) (x : Msix) : (s.setMsix fn vec x).timers = s.timers := rfl
@[simp] theorem State.setMsix_mailboxes (s : State) (fn vec : Nat) (x : Msix) : (s.setMsix fn vec x).mailboxes = s.mailboxes := rfl
@[simp] theorem State.setMsix_hostReads (s : State) (fn vec : Nat) (x : Msix) : (s.setMsix fn vec x).hostReads = s.hostReads := rfl
@[simp] theorem State.setMsix_hdms (s : State) (fn vec : Nat) (x : Msix) : (s.setMsix fn vec x).hdms = s.hdms := rfl
@[simp] theorem State.setMsix_cxlCache (s : State) (fn vec : Nat) (x : Msix) : (s.setMsix fn vec x).cxlCache = s.cxlCache := rfl
@[simp] theorem State.setMsix_ats (s : State) (fn vec : Nat) (x : Msix) : (s.setMsix fn vec x).ats = s.ats := rfl
@[simp] theorem State.setMsix_aer (s : State) (fn vec : Nat) (x : Msix) : (s.setMsix fn vec x).aer = s.aer := rfl
@[simp] theorem State.setMsix_mgmt (s : State) (fn vec : Nat) (x : Msix) : (s.setMsix fn vec x).mgmt = s.mgmt := rfl
@[simp] theorem State.setMsix_rst (s : State) (fn vec : Nat) (x : Msix) : (s.setMsix fn vec x).rst = s.rst := rfl

/-! ### setEntry -/

@[simp] theorem State.setEntry_pending (s : State) (e : Nat) (x : Rec64) : (s.setEntry e x).pending = s.pending := rfl
@[simp] theorem State.setEntry_clock (s : State) (e : Nat) (x : Rec64) : (s.setEntry e x).clock = s.clock := rfl
@[simp] theorem State.setEntry_time (s : State) (e : Nat) (x : Rec64) : (s.setEntry e x).time = s.time := rfl
@[simp] theorem State.setEntry_seqrs (s : State) (e : Nat) (x : Rec64) : (s.setEntry e x).seqrs = s.seqrs := rfl
@[simp] theorem State.setEntry_checks (s : State) (e : Nat) (x : Rec64) : (s.setEntry e x).checks = s.checks := rfl
@[simp] theorem State.setEntry_checkCtls (s : State) (e : Nat) (x : Rec64) : (s.setEntry e x).checkCtls = s.checkCtls := rfl
@[simp] theorem State.setEntry_disps (s : State) (e : Nat) (x : Rec64) : (s.setEntry e x).disps = s.disps := rfl
@[simp] theorem State.setEntry_l1s (s : State) (e : Nat) (x : Rec64) : (s.setEntry e x).l1s = s.l1s := rfl
@[simp] theorem State.setEntry_l2 (s : State) (e : Nat) (x : Rec64) : (s.setEntry e x).l2 = s.l2 := rfl
@[simp] theorem State.setEntry_msix (s : State) (e : Nat) (x : Rec64) : (s.setEntry e x).msix = s.msix := rfl
@[simp] theorem State.setEntry_msixFns (s : State) (e : Nat) (x : Rec64) : (s.setEntry e x).msixFns = s.msixFns := rfl
@[simp] theorem State.setEntry_mcs (s : State) (e : Nat) (x : Rec64) : (s.setEntry e x).mcs = s.mcs := rfl
@[simp] theorem State.setEntry_streams (s : State) (e : Nat) (x : Rec64) : (s.setEntry e x).streams = s.streams := rfl
@[simp] theorem State.setEntry_qe (s : State) (e : Nat) (x : Rec64) : (s.setEntry e x).qe = s.qe := rfl
@[simp] theorem State.setEntry_mem (s : State) (e : Nat) (x : Rec64) : (s.setEntry e x).mem = s.mem := rfl
@[simp] theorem State.setEntry_hanks (s : State) (e : Nat) (x : Rec64) : (s.setEntry e x).hanks = s.hanks := rfl
@[simp] theorem State.setEntry_hbms (s : State) (e : Nat) (x : Rec64) : (s.setEntry e x).hbms = s.hbms := rfl
@[simp] theorem State.setEntry_rsv (s : State) (e : Nat) (x : Rec64) : (s.setEntry e x).rsv = s.rsv := rfl
@[simp] theorem State.setEntry_locks (s : State) (e : Nat) (x : Rec64) : (s.setEntry e x).locks = s.locks := rfl
@[simp] theorem State.setEntry_parts (s : State) (e : Nat) (x : Rec64) : (s.setEntry e x).parts = s.parts := rfl
@[simp] theorem State.setEntry_granOwn (s : State) (e : Nat) (x : Rec64) : (s.setEntry e x).granOwn = s.granOwn := rfl
@[simp] theorem State.setEntry_granNext (s : State) (e : Nat) (x : Rec64) : (s.setEntry e x).granNext = s.granNext := rfl
@[simp] theorem State.setEntry_posMap (s : State) (e : Nat) (x : Rec64) : (s.setEntry e x).posMap = s.posMap := rfl
@[simp] theorem State.setEntry_rings (s : State) (e : Nat) (x : Rec64) : (s.setEntry e x).rings = s.rings := rfl
@[simp] theorem State.setEntry_sent (s : State) (e : Nat) (x : Rec64) : (s.setEntry e x).sent = s.sent := rfl
@[simp] theorem State.setEntry_resp (s : State) (e : Nat) (x : Rec64) : (s.setEntry e x).resp = s.resp := rfl
@[simp] theorem State.setEntry_node (s : State) (e : Nat) (x : Rec64) : (s.setEntry e x).node = s.node := rfl
@[simp] theorem State.setEntry_hbmReqs (s : State) (e : Nat) (x : Rec64) : (s.setEntry e x).hbmReqs = s.hbmReqs := rfl
@[simp] theorem State.setEntry_traceOut (s : State) (e : Nat) (x : Rec64) : (s.setEntry e x).traceOut = s.traceOut := rfl
@[simp] theorem State.setEntry_dict (s : State) (e : Nat) (x : Rec64) : (s.setEntry e x).dict = s.dict := rfl
@[simp] theorem State.setEntry_doms (s : State) (e : Nat) (x : Rec64) : (s.setEntry e x).doms = s.doms := rfl
@[simp] theorem State.setEntry_selects (s : State) (e : Nat) (x : Rec64) : (s.setEntry e x).selects = s.selects := rfl
@[simp] theorem State.setEntry_prickUnits (s : State) (e : Nat) (x : Rec64) : (s.setEntry e x).prickUnits = s.prickUnits := rfl
@[simp] theorem State.setEntry_cards (s : State) (e : Nat) (x : Rec64) : (s.setEntry e x).cards = s.cards := rfl
@[simp] theorem State.setEntry_shuttles (s : State) (e : Nat) (x : Rec64) : (s.setEntry e x).shuttles = s.shuttles := rfl
@[simp] theorem State.setEntry_egress (s : State) (e : Nat) (x : Rec64) : (s.setEntry e x).egress = s.egress := rfl
@[simp] theorem State.setEntry_timers (s : State) (e : Nat) (x : Rec64) : (s.setEntry e x).timers = s.timers := rfl
@[simp] theorem State.setEntry_mailboxes (s : State) (e : Nat) (x : Rec64) : (s.setEntry e x).mailboxes = s.mailboxes := rfl
@[simp] theorem State.setEntry_hostReads (s : State) (e : Nat) (x : Rec64) : (s.setEntry e x).hostReads = s.hostReads := rfl
@[simp] theorem State.setEntry_hdms (s : State) (e : Nat) (x : Rec64) : (s.setEntry e x).hdms = s.hdms := rfl
@[simp] theorem State.setEntry_cxlCache (s : State) (e : Nat) (x : Rec64) : (s.setEntry e x).cxlCache = s.cxlCache := rfl
@[simp] theorem State.setEntry_ats (s : State) (e : Nat) (x : Rec64) : (s.setEntry e x).ats = s.ats := rfl
@[simp] theorem State.setEntry_aer (s : State) (e : Nat) (x : Rec64) : (s.setEntry e x).aer = s.aer := rfl
@[simp] theorem State.setEntry_mgmt (s : State) (e : Nat) (x : Rec64) : (s.setEntry e x).mgmt = s.mgmt := rfl
@[simp] theorem State.setEntry_rst (s : State) (e : Nat) (x : Rec64) : (s.setEntry e x).rst = s.rst := rfl

/-! ### poke -/

@[simp] theorem State.poke_pending (s : State) (a : Nat) (l : List Byte) : (s.poke a l).pending = s.pending := rfl
@[simp] theorem State.poke_clock (s : State) (a : Nat) (l : List Byte) : (s.poke a l).clock = s.clock := rfl
@[simp] theorem State.poke_time (s : State) (a : Nat) (l : List Byte) : (s.poke a l).time = s.time := rfl
@[simp] theorem State.poke_seqrs (s : State) (a : Nat) (l : List Byte) : (s.poke a l).seqrs = s.seqrs := rfl
@[simp] theorem State.poke_checks (s : State) (a : Nat) (l : List Byte) : (s.poke a l).checks = s.checks := rfl
@[simp] theorem State.poke_checkCtls (s : State) (a : Nat) (l : List Byte) : (s.poke a l).checkCtls = s.checkCtls := rfl
@[simp] theorem State.poke_disps (s : State) (a : Nat) (l : List Byte) : (s.poke a l).disps = s.disps := rfl
@[simp] theorem State.poke_l1s (s : State) (a : Nat) (l : List Byte) : (s.poke a l).l1s = s.l1s := rfl
@[simp] theorem State.poke_l2 (s : State) (a : Nat) (l : List Byte) : (s.poke a l).l2 = s.l2 := rfl
@[simp] theorem State.poke_msix (s : State) (a : Nat) (l : List Byte) : (s.poke a l).msix = s.msix := rfl
@[simp] theorem State.poke_msixFns (s : State) (a : Nat) (l : List Byte) : (s.poke a l).msixFns = s.msixFns := rfl
@[simp] theorem State.poke_mcs (s : State) (a : Nat) (l : List Byte) : (s.poke a l).mcs = s.mcs := rfl
@[simp] theorem State.poke_store (s : State) (a : Nat) (l : List Byte) : (s.poke a l).store = s.store := rfl
@[simp] theorem State.poke_streams (s : State) (a : Nat) (l : List Byte) : (s.poke a l).streams = s.streams := rfl
@[simp] theorem State.poke_qe (s : State) (a : Nat) (l : List Byte) : (s.poke a l).qe = s.qe := rfl
@[simp] theorem State.poke_hanks (s : State) (a : Nat) (l : List Byte) : (s.poke a l).hanks = s.hanks := rfl
@[simp] theorem State.poke_hbms (s : State) (a : Nat) (l : List Byte) : (s.poke a l).hbms = s.hbms := rfl
@[simp] theorem State.poke_rsv (s : State) (a : Nat) (l : List Byte) : (s.poke a l).rsv = s.rsv := rfl
@[simp] theorem State.poke_locks (s : State) (a : Nat) (l : List Byte) : (s.poke a l).locks = s.locks := rfl
@[simp] theorem State.poke_parts (s : State) (a : Nat) (l : List Byte) : (s.poke a l).parts = s.parts := rfl
@[simp] theorem State.poke_granOwn (s : State) (a : Nat) (l : List Byte) : (s.poke a l).granOwn = s.granOwn := rfl
@[simp] theorem State.poke_granNext (s : State) (a : Nat) (l : List Byte) : (s.poke a l).granNext = s.granNext := rfl
@[simp] theorem State.poke_posMap (s : State) (a : Nat) (l : List Byte) : (s.poke a l).posMap = s.posMap := rfl
@[simp] theorem State.poke_rings (s : State) (a : Nat) (l : List Byte) : (s.poke a l).rings = s.rings := rfl
@[simp] theorem State.poke_sent (s : State) (a : Nat) (l : List Byte) : (s.poke a l).sent = s.sent := rfl
@[simp] theorem State.poke_resp (s : State) (a : Nat) (l : List Byte) : (s.poke a l).resp = s.resp := rfl
@[simp] theorem State.poke_node (s : State) (a : Nat) (l : List Byte) : (s.poke a l).node = s.node := rfl
@[simp] theorem State.poke_hbmReqs (s : State) (a : Nat) (l : List Byte) : (s.poke a l).hbmReqs = s.hbmReqs := rfl
@[simp] theorem State.poke_traceOut (s : State) (a : Nat) (l : List Byte) : (s.poke a l).traceOut = s.traceOut := rfl
@[simp] theorem State.poke_dict (s : State) (a : Nat) (l : List Byte) : (s.poke a l).dict = s.dict := rfl
@[simp] theorem State.poke_doms (s : State) (a : Nat) (l : List Byte) : (s.poke a l).doms = s.doms := rfl
@[simp] theorem State.poke_selects (s : State) (a : Nat) (l : List Byte) : (s.poke a l).selects = s.selects := rfl
@[simp] theorem State.poke_prickUnits (s : State) (a : Nat) (l : List Byte) : (s.poke a l).prickUnits = s.prickUnits := rfl
@[simp] theorem State.poke_cards (s : State) (a : Nat) (l : List Byte) : (s.poke a l).cards = s.cards := rfl
@[simp] theorem State.poke_shuttles (s : State) (a : Nat) (l : List Byte) : (s.poke a l).shuttles = s.shuttles := rfl
@[simp] theorem State.poke_egress (s : State) (a : Nat) (l : List Byte) : (s.poke a l).egress = s.egress := rfl
@[simp] theorem State.poke_timers (s : State) (a : Nat) (l : List Byte) : (s.poke a l).timers = s.timers := rfl
@[simp] theorem State.poke_mailboxes (s : State) (a : Nat) (l : List Byte) : (s.poke a l).mailboxes = s.mailboxes := rfl
@[simp] theorem State.poke_hostReads (s : State) (a : Nat) (l : List Byte) : (s.poke a l).hostReads = s.hostReads := rfl
@[simp] theorem State.poke_hdms (s : State) (a : Nat) (l : List Byte) : (s.poke a l).hdms = s.hdms := rfl
@[simp] theorem State.poke_cxlCache (s : State) (a : Nat) (l : List Byte) : (s.poke a l).cxlCache = s.cxlCache := rfl
@[simp] theorem State.poke_ats (s : State) (a : Nat) (l : List Byte) : (s.poke a l).ats = s.ats := rfl
@[simp] theorem State.poke_aer (s : State) (a : Nat) (l : List Byte) : (s.poke a l).aer = s.aer := rfl
@[simp] theorem State.poke_mgmt (s : State) (a : Nat) (l : List Byte) : (s.poke a l).mgmt = s.mgmt := rfl
@[simp] theorem State.poke_rst (s : State) (a : Nat) (l : List Byte) : (s.poke a l).rst = s.rst := rfl

/-! ### zeroRange -/

@[simp] theorem State.zeroRange_pending (s : State) (a n : Nat) : (s.zeroRange a n).pending = s.pending := rfl
@[simp] theorem State.zeroRange_clock (s : State) (a n : Nat) : (s.zeroRange a n).clock = s.clock := rfl
@[simp] theorem State.zeroRange_time (s : State) (a n : Nat) : (s.zeroRange a n).time = s.time := rfl
@[simp] theorem State.zeroRange_seqrs (s : State) (a n : Nat) : (s.zeroRange a n).seqrs = s.seqrs := rfl
@[simp] theorem State.zeroRange_checks (s : State) (a n : Nat) : (s.zeroRange a n).checks = s.checks := rfl
@[simp] theorem State.zeroRange_checkCtls (s : State) (a n : Nat) : (s.zeroRange a n).checkCtls = s.checkCtls := rfl
@[simp] theorem State.zeroRange_disps (s : State) (a n : Nat) : (s.zeroRange a n).disps = s.disps := rfl
@[simp] theorem State.zeroRange_l1s (s : State) (a n : Nat) : (s.zeroRange a n).l1s = s.l1s := rfl
@[simp] theorem State.zeroRange_l2 (s : State) (a n : Nat) : (s.zeroRange a n).l2 = s.l2 := rfl
@[simp] theorem State.zeroRange_msix (s : State) (a n : Nat) : (s.zeroRange a n).msix = s.msix := rfl
@[simp] theorem State.zeroRange_msixFns (s : State) (a n : Nat) : (s.zeroRange a n).msixFns = s.msixFns := rfl
@[simp] theorem State.zeroRange_mcs (s : State) (a n : Nat) : (s.zeroRange a n).mcs = s.mcs := rfl
@[simp] theorem State.zeroRange_store (s : State) (a n : Nat) : (s.zeroRange a n).store = s.store := rfl
@[simp] theorem State.zeroRange_streams (s : State) (a n : Nat) : (s.zeroRange a n).streams = s.streams := rfl
@[simp] theorem State.zeroRange_qe (s : State) (a n : Nat) : (s.zeroRange a n).qe = s.qe := rfl
@[simp] theorem State.zeroRange_hanks (s : State) (a n : Nat) : (s.zeroRange a n).hanks = s.hanks := rfl
@[simp] theorem State.zeroRange_hbms (s : State) (a n : Nat) : (s.zeroRange a n).hbms = s.hbms := rfl
@[simp] theorem State.zeroRange_rsv (s : State) (a n : Nat) : (s.zeroRange a n).rsv = s.rsv := rfl
@[simp] theorem State.zeroRange_locks (s : State) (a n : Nat) : (s.zeroRange a n).locks = s.locks := rfl
@[simp] theorem State.zeroRange_parts (s : State) (a n : Nat) : (s.zeroRange a n).parts = s.parts := rfl
@[simp] theorem State.zeroRange_granOwn (s : State) (a n : Nat) : (s.zeroRange a n).granOwn = s.granOwn := rfl
@[simp] theorem State.zeroRange_granNext (s : State) (a n : Nat) : (s.zeroRange a n).granNext = s.granNext := rfl
@[simp] theorem State.zeroRange_posMap (s : State) (a n : Nat) : (s.zeroRange a n).posMap = s.posMap := rfl
@[simp] theorem State.zeroRange_rings (s : State) (a n : Nat) : (s.zeroRange a n).rings = s.rings := rfl
@[simp] theorem State.zeroRange_sent (s : State) (a n : Nat) : (s.zeroRange a n).sent = s.sent := rfl
@[simp] theorem State.zeroRange_resp (s : State) (a n : Nat) : (s.zeroRange a n).resp = s.resp := rfl
@[simp] theorem State.zeroRange_node (s : State) (a n : Nat) : (s.zeroRange a n).node = s.node := rfl
@[simp] theorem State.zeroRange_hbmReqs (s : State) (a n : Nat) : (s.zeroRange a n).hbmReqs = s.hbmReqs := rfl
@[simp] theorem State.zeroRange_traceOut (s : State) (a n : Nat) : (s.zeroRange a n).traceOut = s.traceOut := rfl
@[simp] theorem State.zeroRange_dict (s : State) (a n : Nat) : (s.zeroRange a n).dict = s.dict := rfl
@[simp] theorem State.zeroRange_doms (s : State) (a n : Nat) : (s.zeroRange a n).doms = s.doms := rfl
@[simp] theorem State.zeroRange_selects (s : State) (a n : Nat) : (s.zeroRange a n).selects = s.selects := rfl
@[simp] theorem State.zeroRange_prickUnits (s : State) (a n : Nat) : (s.zeroRange a n).prickUnits = s.prickUnits := rfl
@[simp] theorem State.zeroRange_cards (s : State) (a n : Nat) : (s.zeroRange a n).cards = s.cards := rfl
@[simp] theorem State.zeroRange_shuttles (s : State) (a n : Nat) : (s.zeroRange a n).shuttles = s.shuttles := rfl
@[simp] theorem State.zeroRange_egress (s : State) (a n : Nat) : (s.zeroRange a n).egress = s.egress := rfl
@[simp] theorem State.zeroRange_timers (s : State) (a n : Nat) : (s.zeroRange a n).timers = s.timers := rfl
@[simp] theorem State.zeroRange_mailboxes (s : State) (a n : Nat) : (s.zeroRange a n).mailboxes = s.mailboxes := rfl
@[simp] theorem State.zeroRange_hostReads (s : State) (a n : Nat) : (s.zeroRange a n).hostReads = s.hostReads := rfl
@[simp] theorem State.zeroRange_hdms (s : State) (a n : Nat) : (s.zeroRange a n).hdms = s.hdms := rfl
@[simp] theorem State.zeroRange_cxlCache (s : State) (a n : Nat) : (s.zeroRange a n).cxlCache = s.cxlCache := rfl
@[simp] theorem State.zeroRange_ats (s : State) (a n : Nat) : (s.zeroRange a n).ats = s.ats := rfl
@[simp] theorem State.zeroRange_aer (s : State) (a n : Nat) : (s.zeroRange a n).aer = s.aer := rfl
@[simp] theorem State.zeroRange_mgmt (s : State) (a n : Nat) : (s.zeroRange a n).mgmt = s.mgmt := rfl
@[simp] theorem State.zeroRange_rst (s : State) (a n : Nat) : (s.zeroRange a n).rst = s.rst := rfl

/-! ### send -/

@[simp] theorem State.send_pending (s : State) (x : Sent) : (s.send x).pending = s.pending := rfl
@[simp] theorem State.send_clock (s : State) (x : Sent) : (s.send x).clock = s.clock := rfl
@[simp] theorem State.send_time (s : State) (x : Sent) : (s.send x).time = s.time := rfl
@[simp] theorem State.send_cores (s : State) (x : Sent) : (s.send x).cores = s.cores := rfl
@[simp] theorem State.send_seqrs (s : State) (x : Sent) : (s.send x).seqrs = s.seqrs := rfl
@[simp] theorem State.send_checks (s : State) (x : Sent) : (s.send x).checks = s.checks := rfl
@[simp] theorem State.send_checkCtls (s : State) (x : Sent) : (s.send x).checkCtls = s.checkCtls := rfl
@[simp] theorem State.send_disps (s : State) (x : Sent) : (s.send x).disps = s.disps := rfl
@[simp] theorem State.send_l1s (s : State) (x : Sent) : (s.send x).l1s = s.l1s := rfl
@[simp] theorem State.send_l2 (s : State) (x : Sent) : (s.send x).l2 = s.l2 := rfl
@[simp] theorem State.send_msix (s : State) (x : Sent) : (s.send x).msix = s.msix := rfl
@[simp] theorem State.send_msixFns (s : State) (x : Sent) : (s.send x).msixFns = s.msixFns := rfl
@[simp] theorem State.send_mcs (s : State) (x : Sent) : (s.send x).mcs = s.mcs := rfl
@[simp] theorem State.send_store (s : State) (x : Sent) : (s.send x).store = s.store := rfl
@[simp] theorem State.send_streams (s : State) (x : Sent) : (s.send x).streams = s.streams := rfl
@[simp] theorem State.send_qe (s : State) (x : Sent) : (s.send x).qe = s.qe := rfl
@[simp] theorem State.send_mem (s : State) (x : Sent) : (s.send x).mem = s.mem := rfl
@[simp] theorem State.send_hanks (s : State) (x : Sent) : (s.send x).hanks = s.hanks := rfl
@[simp] theorem State.send_hbms (s : State) (x : Sent) : (s.send x).hbms = s.hbms := rfl
@[simp] theorem State.send_rsv (s : State) (x : Sent) : (s.send x).rsv = s.rsv := rfl
@[simp] theorem State.send_locks (s : State) (x : Sent) : (s.send x).locks = s.locks := rfl
@[simp] theorem State.send_parts (s : State) (x : Sent) : (s.send x).parts = s.parts := rfl
@[simp] theorem State.send_granOwn (s : State) (x : Sent) : (s.send x).granOwn = s.granOwn := rfl
@[simp] theorem State.send_granNext (s : State) (x : Sent) : (s.send x).granNext = s.granNext := rfl
@[simp] theorem State.send_posMap (s : State) (x : Sent) : (s.send x).posMap = s.posMap := rfl
@[simp] theorem State.send_rings (s : State) (x : Sent) : (s.send x).rings = s.rings := rfl
@[simp] theorem State.send_resp (s : State) (x : Sent) : (s.send x).resp = s.resp := rfl
@[simp] theorem State.send_node (s : State) (x : Sent) : (s.send x).node = s.node := rfl
@[simp] theorem State.send_hbmReqs (s : State) (x : Sent) : (s.send x).hbmReqs = s.hbmReqs := rfl
@[simp] theorem State.send_traceOut (s : State) (x : Sent) : (s.send x).traceOut = s.traceOut := rfl
@[simp] theorem State.send_dict (s : State) (x : Sent) : (s.send x).dict = s.dict := rfl
@[simp] theorem State.send_doms (s : State) (x : Sent) : (s.send x).doms = s.doms := rfl
@[simp] theorem State.send_selects (s : State) (x : Sent) : (s.send x).selects = s.selects := rfl
@[simp] theorem State.send_prickUnits (s : State) (x : Sent) : (s.send x).prickUnits = s.prickUnits := rfl
@[simp] theorem State.send_cards (s : State) (x : Sent) : (s.send x).cards = s.cards := rfl
@[simp] theorem State.send_shuttles (s : State) (x : Sent) : (s.send x).shuttles = s.shuttles := rfl
@[simp] theorem State.send_egress (s : State) (x : Sent) : (s.send x).egress = s.egress := rfl
@[simp] theorem State.send_timers (s : State) (x : Sent) : (s.send x).timers = s.timers := rfl
@[simp] theorem State.send_mailboxes (s : State) (x : Sent) : (s.send x).mailboxes = s.mailboxes := rfl
@[simp] theorem State.send_hostReads (s : State) (x : Sent) : (s.send x).hostReads = s.hostReads := rfl
@[simp] theorem State.send_hdms (s : State) (x : Sent) : (s.send x).hdms = s.hdms := rfl
@[simp] theorem State.send_cxlCache (s : State) (x : Sent) : (s.send x).cxlCache = s.cxlCache := rfl
@[simp] theorem State.send_ats (s : State) (x : Sent) : (s.send x).ats = s.ats := rfl
@[simp] theorem State.send_aer (s : State) (x : Sent) : (s.send x).aer = s.aer := rfl
@[simp] theorem State.send_mgmt (s : State) (x : Sent) : (s.send x).mgmt = s.mgmt := rfl
@[simp] theorem State.send_rst (s : State) (x : Sent) : (s.send x).rst = s.rst := rfl

/-! ### A read after a write -/

@[simp] theorem State.core_setCore (s : State) (k j : Nat) (c : Core) :
    (s.setCore k c).core j = if j = k then c else s.core j := by
  by_cases h : j = k
  · subst h; simp [State.core, State.setCore]
  · simp [State.core, State.setCore, tabGet_tabSet_other _ _ _ _ h, h]
@[simp] theorem State.seqr_setSeqr (s : State) (k j : Nat) (c : Seqr) :
    (s.setSeqr k c).seqr j = if j = k then c else s.seqr j := tabGet_tabSet ..
@[simp] theorem State.check_setCheck (s : State) (k j : Nat) (c : Check) :
    (s.setCheck k c).check j = if j = k then c else s.check j := tabGet_tabSet ..
@[simp] theorem State.checkCtl_setCheckCtl (s : State) (k j : Nat) (c : CheckCtl) :
    (s.setCheckCtl k c).checkCtl j = if j = k then c else s.checkCtl j := tabGet_tabSet ..
@[simp] theorem State.disp_setDisp (s : State) (k j : Nat) (c : Disp) :
    (s.setDisp k c).disp j = if j = k then c else s.disp j := tabGet_tabSet ..
@[simp] theorem State.l1_setL1 (s : State) (k j : Nat) (c : L1) :
    (s.setL1 k c).l1 j = if j = k then c else s.l1 j := tabGet_tabSet ..
@[simp] theorem State.mc_setMc (s : State) (k j : Nat) (c : Mc) :
    (s.setMc k c).mc j = if j = k then c else s.mc j := tabGet_tabSet ..
@[simp] theorem State.hank_setHank (s : State) (k j : Nat) (c : Hank) :
    (s.setHank k c).hank j = if j = k then c else s.hank j := tabGet_tabSet ..
@[simp] theorem State.stack_setStack (s : State) (k j : Nat) (c : Stack) :
    (s.setStack k c).stack j = if j = k then c else s.stack j := tabGet_tabSet ..
@[simp] theorem State.part_setPart (s : State) (k j : Nat) (c : Part) :
    (s.setPart k c).part j = if j = k then c else s.part j := tabGet_tabSet ..
@[simp] theorem State.queue_setQueue (s : State) (k j : Nat) (c : Queue) :
    (s.setQueue k c).queue j = if j = k then c else s.queue j := tabGet_tabSet ..
@[simp] theorem State.region_setRegion (s : State) (k j : Nat) (c : Region) :
    (s.setRegion k c).region j = if j = k then c else s.region j := tabGet_tabSet ..
@[simp] theorem State.aux_setAux (s : State) (k j : Nat) (c : StreamAux) :
    (s.setAux k c).aux j = if j = k then c else s.aux j := tabGet_tabSet ..
@[simp] theorem State.card_setCard (s : State) (k j : Nat) (c : Cards) :
    (s.setCard k c).card j = if j = k then c else s.card j := tabGet_tabSet ..
@[simp] theorem State.shuttle_setShuttle (s : State) (k j : Nat) (c : Shuttle) :
    (s.setShuttle k c).shuttle j = if j = k then c else s.shuttle j := tabGet_tabSet ..
@[simp] theorem State.port_setPort (s : State) (k j : Nat) (c : Egress) :
    (s.setPort k c).port j = if j = k then c else s.port j := tabGet_tabSet ..
@[simp] theorem State.pos_setPos (s : State) (k j : Nat) (c : Pos) :
    (s.setPos k c).pos j = if j = k then c else s.pos j := tabGet_tabSet ..
@[simp] theorem State.entry_setEntry (s : State) (k j : Nat) (c : Rec64) :
    (s.setEntry k c).entry j = if j = k then c else s.entry j := tabGet_tabSet ..
@[simp] theorem State.ring_setRing (s : State) (p r q t : Nat) (x : Ring) :
    (s.setRing p r x).ring q t = if 4 * q + t = 4 * p + r then x else s.ring q t := tabGet_tabSet ..
@[simp] theorem State.msixEnt_setMsix (s : State) (f v f' v' : Nat) (x : Msix) :
    (s.setMsix f v x).msixEnt f' v' = if 2048 * f' + v' = 2048 * f + v then x else s.msixEnt f' v' := tabGet_tabSet ..

end Sys2Proof.Machine
end

