-- ==== Sys2Proof/Laws/Core.lean ====
section
/-! SUPPORT. Issue of an instruction on a core, and what the shared writes of its registers do. -/

namespace Sys2Proof.Machine
open Sys2Proof

/-! ## General registers (08 R266) -/

@[simp] theorem Cpu.get_zero (u : Cpu) : u.get 0 = 0 := rfl

theorem Cpu.get_set (u : Cpu) (r q : RegId) (v : DWord) :
    (u.set r v).get q = if q = 0 then 0 else if q = r then v else u.get q := by
  unfold Cpu.set Cpu.get
  by_cases hq : q = 0
  · rw [if_pos hq, if_pos hq]
  · rw [if_neg hq, if_neg hq]
    by_cases hr : r = 0
    · rw [if_pos hr, if_neg (fun e => hq (e.trans hr)), if_neg hq]
    · rw [if_neg hr]
      by_cases h : q = r
      · rw [if_pos h, h]; exact tabGet_tabSet_same ..
      · rw [if_neg h, if_neg hq]; exact tabGet_tabSet_other _ _ _ _ fun e => h (BitVec.eq_of_toNat_eq e)

theorem Cpu.set_eq (u : Cpu) (r : RegId) (v : DWord) : u.set r v = { u with g := (u.set r v).g } := by
  unfold Cpu.set; split <;> rfl

@[simp] theorem Cpu.set_pc (u : Cpu) (r : RegId) (v : DWord) : (u.set r v).pc = u.pc := by rw [Cpu.set_eq]
@[simp] theorem Cpu.set_st (u : Cpu) (r : RegId) (v : DWord) : (u.set r v).st = u.st := by rw [Cpu.set_eq]
@[simp] theorem Cpu.set_resv (u : Cpu) (r : RegId) (v : DWord) : (u.set r v).resv = u.resv := by rw [Cpu.set_eq]

/-! ## One core -/

@[simp] theorem State.core_modCore (s : State) (k j : Nat) (f : Core → Core) :
    (s.modCore k f).core j = if j = k then f (s.core k) else s.core j := by
  by_cases h : j = k
  · subst h; simp [State.modCore]
  · simp [State.modCore, h]

@[simp] theorem State.cpu_modCpu (s : State) (k j : Nat) (f : Cpu → Cpu) :
    (s.modCpu k f).cpu j = if j = k then f (s.cpu k) else s.cpu j := by
  by_cases h : j = k
  · subst h; simp [State.modCpu, State.cpu]
  · simp [State.modCpu, State.cpu, h]

theorem State.modCore_eq (s : State) (k : Nat) (f : Core → Core) :
    s.modCore k f = { s with cores := (s.modCore k f).cores } := rfl

theorem onlyCore_refl (c : Nat) (s : State) : onlyCore c s s := ⟨rfl, fun _ _ => rfl⟩

theorem onlyCore_trans {c : Nat} {s t u : State} (h : onlyCore c s t) (h' : onlyCore c t u) : onlyCore c s u := by
  refine ⟨?_, fun j hj => (h'.2 j hj).trans (h.2 j hj)⟩
  rw [h'.1, h.1]

theorem onlyCore_modCore (s : State) (k : Nat) (f : Core → Core) : onlyCore k s (s.modCore k f) :=
  ⟨rfl, fun j hj => by simp [hj]⟩

theorem onlyCore_modCpu (s : State) (k : Nat) (f : Cpu → Cpu) : onlyCore k s (s.modCpu k f) := onlyCore_modCore ..

/-! ## The state an instruction finds -/

theorem State.touchLine_onlyCore (s : State) (k a : Nat) : onlyCore k s (s.touchLine k a) := by
  unfold State.touchLine
  split
  · exact onlyCore_refl k s
  · dsimp only
    split
    · exact onlyCore_modCore s k fun _ => _
    · exact onlyCore_refl k s

theorem State.core_modCpu_same (s : State) (k : Nat) (f : Cpu → Cpu) :
    (s.modCpu k f).core k = { s.core k with cpu := f (s.core k).cpu } := by
  simp [State.modCpu]

theorem Core.line_eta (x : Core) : x = { x with icache := x.icache, cpu := { x.cpu with lineBuf := x.cpu.lineBuf } } := rfl

/-- Touching a line changes the line buffer and the order of the cache. -/
theorem State.touchLine_core (s : State) (k a : Nat) :
    (s.touchLine k a).core k = { s.core k with
      icache := ((s.touchLine k a).core k).icache
      cpu := { (s.core k).cpu with lineBuf := ((s.touchLine k a).core k).cpu.lineBuf } } := by
  unfold State.touchLine
  split
  · exact Core.line_eta _
  · dsimp only
    split
    · simp only [State.core_setCore, if_true]
    · exact Core.line_eta _

/-- Nothing but core k's run state, line buffer, cache order and first fetch at a vector differs when its instruction has
its effect. -/
theorem State.begun_onlyCore (s : State) (k : Nat) : onlyCore k s (s.begun k) := by
  have woken : onlyCore k s (s.awake k) := onlyCore_modCore s k _
  exact onlyCore_trans (onlyCore_trans woken (State.touchLine_onlyCore ..))
    (onlyCore_modCore _ k fun c => { c with cpu := { c.cpu with entered := false } })

theorem State.begun_core (s : State) (k : Nat) :
    (s.begun k).core k = { s.core k with
      run := .executing
      icache := ((s.begun k).core k).icache
      cpu := { (s.core k).cpu with lineBuf := ((s.begun k).core k).cpu.lineBuf, entered := false } } := by
  have h := State.touchLine_core (s.awake k) k ((s.awake k).pc k).toNat
  have h' : (s.awake k).core k = { s.core k with run := .executing } := by simp [State.awake]
  rw [h'] at h
  unfold State.begun
  rw [State.core_modCpu_same, h]

theorem State.begun_cpu_g (s : State) (k : Nat) : ((s.begun k).cpu k).g = (s.cpu k).g := by
  unfold State.cpu; rw [State.begun_core]

theorem State.begun_cpu_pc (s : State) (k : Nat) : ((s.begun k).cpu k).pc = (s.cpu k).pc := by
  unfold State.cpu; rw [State.begun_core]

theorem Cpu.get_congr {u w : Cpu} (h : u.g = w.g) (r : RegId) : u.get r = w.get r := by
  unfold Cpu.get; rw [h]

@[simp] theorem State.begun_g (s : State) (k : Nat) (r : RegId) : (s.begun k).g k r = s.g k r :=
  Cpu.get_congr (State.begun_cpu_g s k) r

@[simp] theorem State.begun_pc (s : State) (k : Nat) : (s.begun k).pc k = s.pc k :=
  State.begun_cpu_pc s k

/-- An instruction that issues has its effect in the state begun gives. -/
theorem State.issue_body {s : State} {k : Nat} {regs : List RegId} (body : State → State)
    (h : s.issues k regs = true) : s.issue k regs body = body (s.begun k) := by
  unfold State.issues at h
  simp only [Bool.and_eq_true, Bool.not_eq_true', Option.isNone_iff_eq_none] at h
  obtain ⟨⟨⟨h1, h2⟩, h3⟩, h4⟩ := h
  simp [State.issue, h1, h2, h3, h4]

/-! ## The shared writes -/

theorem Core.regs_eta (x : Core) (f : Cpu → Cpu) (hf : ∀ u, f u = { u with g := (f u).g, pc := (f u).pc }) :
    ({ x with cpu := f x.cpu } : Core) = { x with cpu := { x.cpu with g := (f x.cpu).g, pc := (f x.cpu).pc } } :=
  congrArg (fun u => ({ x with cpu := u } : Core)) (hf x.cpu)

theorem State.core_modCpu (s : State) (k : Nat) (f : Cpu → Cpu) :
    (s.modCpu k f).core k = { s.core k with cpu := f (s.core k).cpu } := by
  unfold State.modCpu; rw [State.core_modCore, if_pos rfl]

theorem onlyRegs_of {c : Nat} {s : State} (f : Cpu → Cpu) (hf : ∀ u, f u = { u with g := (f u).g, pc := (f u).pc }) :
    onlyRegs c s ((s.begun c).modCpu c f) := by
  refine ⟨onlyCore_trans (State.begun_onlyCore s c) (onlyCore_modCpu ..), ?_⟩
  unfold State.cpu
  rw [State.core_modCpu]
  exact Core.regs_eta _ f hf

theorem coreAt_of {c : Nat} {s : State} {f : Cpu → Cpu} {pc : DWord} {g : RegId → DWord} (hp : (f (s.cpu c)).pc = pc)
    (hg : ∀ r, (f (s.cpu c)).get r = if r = 0 then 0 else g r) : coreAt c pc g (s.modCpu c f) := by
  have h : (s.modCpu c f).cpu c = f (s.cpu c) := by rw [State.cpu_modCpu, if_pos rfl]
  refine ⟨?_, fun r => ?_⟩
  · unfold State.pc; rw [h, hp]
  · unfold State.g; rw [h, hg]

theorem Cpu.get_result (u : Cpu) (rd r : RegId) (v pc : DWord) :
    ({ u.set rd v with pc := pc } : Cpu).get r = if r = 0 then 0 else if r = rd then v else u.get r :=
  (Cpu.get_congr rfl r).trans (Cpu.get_set u rd r v)

/-- Writing rd and going on. -/
theorem wrote_result (s : State) (c : Nat) (rd : RegId) (v : DWord) : wrote c rd v s ((s.begun c).result c rd v) := by
  refine ⟨onlyRegs_of _ fun u => ?_, coreAt_of ?_ fun r => ?_⟩
  · rw [Cpu.set_eq]
  · exact congrArg (· + 4) (State.begun_pc s c)
  · rw [Cpu.get_result]
    have h := State.begun_g s c r
    unfold State.g at h
    rw [h]; rfl

/-- A pair of results. -/
theorem wrotePair_result (s : State) (c : Nat) (rd : RegId) (lo hi : DWord) (h : pairOk rd = true) :
    wrotePair c rd lo hi s ((s.begun c).resultPair c rd lo hi) := by
  refine ⟨onlyRegs_of _ fun u => ?_, coreAt_of ?_ fun r => ?_⟩
  · rw [Cpu.set_eq (u.set rd lo), Cpu.set_eq u]
  · exact congrArg (· + 4) (State.begun_pc s c)
  · have ne : rd ≠ rd + 1 := by
      intro e
      have := congrArg (· - rd) e
      simp [BitVec.add_comm rd, BitVec.add_sub_cancel] at this
    rw [Cpu.get_result, Cpu.get_set]
    have h := State.begun_g s c r
    unfold State.g at h
    rw [h]
    by_cases h1 : r = rd
    · subst h1
      by_cases h0 : r = 0
      · rw [if_pos h0, if_pos h0]
      · rw [if_neg h0, if_neg h0, if_neg ne, if_neg h0, if_pos rfl, if_pos rfl]
    · by_cases h0 : r = 0
      · rw [if_pos h0, if_pos h0]
      · simp only [h0, h1, if_false]; rfl

/-- Going to another instruction. -/
theorem jumped_setPc (s : State) (c : Nat) (a : DWord) : jumped c a s ((s.begun c).setPc c a) := by
  refine ⟨onlyRegs_of _ fun u => rfl, coreAt_of rfl fun r => ?_⟩
  have h := State.begun_g s c r
  refine (Cpu.get_congr rfl r).trans (h.trans ?_)
  by_cases h0 : r = 0
  · subst h0; rfl
  · exact (if_neg h0).symm

/-! ## An instruction that issues, from its body -/

theorem exec_wrote {i : Instr} {s : State} {c : Nat} {regs : List RegId} {body : State → State} {rd : RegId} {v : DWord}
    (hx : exec i s = .next (s.issue c regs body)) (hi : s.issues c regs = true)
    (hb : body (s.begun c) = (s.begun c).result c rd v) : ∃ t, exec i s = .next t ∧ wrote c rd v s t :=
  ⟨_, hx.trans (congrArg _ (State.issue_body body hi)), hb ▸ wrote_result s c rd v⟩

theorem exec_jumped {i : Instr} {s : State} {c : Nat} {regs : List RegId} {body : State → State} {a : DWord}
    (hx : exec i s = .next (s.issue c regs body)) (hi : s.issues c regs = true)
    (hb : body (s.begun c) = (s.begun c).setPc c a) : ∃ t, exec i s = .next t ∧ jumped c a s t :=
  ⟨_, hx.trans (congrArg _ (State.issue_body body hi)), hb ▸ jumped_setPc s c a⟩

theorem exec_ranTo {i : Instr} {s : State} {c : Nat} {regs : List RegId} {body : State → State} {f : Core → Core}
    (hx : exec i s = .next (s.issue c regs body)) (hi : s.issues c regs = true)
    (hb : body (s.begun c) = (s.begun c).modCore c f) : ∃ t, exec i s = .next t ∧ ranTo c f s t := by
  refine ⟨_, hx.trans (congrArg _ (State.issue_body body hi)), ?_⟩
  rw [hb]
  exact ⟨onlyCore_trans (State.begun_onlyCore s c) (onlyCore_modCore ..), by rw [State.core_modCore, if_pos rfl]⟩

theorem exec_trapped {i : Instr} {s : State} {c : Nat} {regs : List RegId} {body : State → State} {code : Nat} {e : DWord}
    (hx : exec i s = .next (s.issue c regs body)) (hi : s.issues c regs = true)
    (hb : body (s.begun c) = (s.begun c).takeException c code ((s.begun c).pc c) e) :
    ∃ t, exec i s = .next t ∧ trapped c code e s t :=
  ⟨_, hx.trans (congrArg _ (State.issue_body body hi)), by rw [hb, State.begun_pc]; rfl⟩

end Sys2Proof.Machine
end

