-- ==== Sys2Proof/Laws/Frames.lean ====
section
/-! SUPPORT. For each shared operation the parts of the state it may change: the state after it is the state before it but for the
fields named. -/

namespace Sys2Proof.Machine
open Sys2Proof

theorem State.dset_frame (s : State) (i j v : Nat) : s.dset i j v = { s with dict := (s.dset i j v).dict } := rfl

theorem State.poke_frame (s : State) (a : Nat) (l : List Byte) :
    s.poke a l = { s with mem := (s.poke a l).mem, cores := (s.poke a l).cores } := rfl

theorem State.zeroRange_frame (s : State) (a n : Nat) :
    s.zeroRange a n = { s with mem := (s.zeroRange a n).mem, cores := (s.zeroRange a n).cores } := rfl

theorem State.copyRange_frame (s : State) (a b n : Nat) :
    s.copyRange a b n = { s with mem := (s.copyRange a b n).mem, cores := (s.copyRange a b n).cores } := rfl

theorem State.setEntry_frame (s : State) (e : Nat) (x : Rec64) :
    s.setEntry e x = { s with store := (s.setEntry e x).store, cores := (s.setEntry e x).cores } := rfl

theorem State.l2Event_frame (s : State) (n : Nat) : s.l2Event n = { s with l2 := (s.l2Event n).l2 } := by
  unfold State.l2Event; split <;> rfl

theorem State.l1Event_frame (s : State) (w n : Nat) : s.l1Event w n = { s with l1s := (s.l1Event w n).l1s } := by
  unfold State.l1Event; split <;> rfl

theorem State.l1EventAt_frame (s : State) (k n : Nat) : s.l1EventAt k n = { s with l1s := (s.l1EventAt k n).l1s } := by
  unfold State.l1EventAt State.l1Event; repeat' split
  all_goals rfl

/-- A message goes out, or joins an unsent one, or raises the PCIe source (12 R383). -/
theorem State.msixMessage_frame (s : State) (fn vec : Nat) :
    s.msixMessage fn vec = { s with sent := (s.msixMessage fn vec).sent, l2 := (s.msixMessage fn vec).l2 } := by
  unfold State.msixMessage State.l2Event; dsimp only; repeat' split
  all_goals rfl

theorem State.msixEvent_frame (s : State) (fn vec : Nat) :
    s.msixEvent fn vec = { s with
      msix := (s.msixEvent fn vec).msix, sent := (s.msixEvent fn vec).sent, l2 := (s.msixEvent fn vec).l2 } := by
  unfold State.msixEvent; dsimp only; repeat' split
  · rfl
  · rfl
  · rw [s.msixMessage_frame fn vec]

theorem State.hostRead_frame (s : State) (fn a n : Nat) (c : Bool) :
    (s.hostRead fn a n c).2 = { s with
      clock := (s.hostRead fn a n c).2.clock, cxlCache := (s.hostRead fn a n c).2.cxlCache, sent := (s.hostRead fn a n c).2.sent } := by
  unfold State.hostRead; dsimp only; repeat' split
  all_goals rfl

theorem State.hostPut_frame (s : State) (fn a : Nat) (l : List Byte) :
    s.hostPut fn a l = { s with cxlCache := (s.hostPut fn a l).cxlCache, sent := (s.hostPut fn a l).sent } := rfl

theorem State.ringPut_frame (s : State) (p r e : Nat) :
    s.ringPut p r e = { s with
      rings := (s.ringPut p r e).rings, cxlCache := (s.ringPut p r e).cxlCache, msix := (s.ringPut p r e).msix
      sent := (s.ringPut p r e).sent, l2 := (s.ringPut p r e).l2 } := by
  unfold State.ringPut
  dsimp only
  rw [State.msixEvent_frame]
  rfl

theorem State.logErr_frame (s : State) (code detail : Nat) : s.logErr code detail = { s with rst := (s.logErr code detail).rst } := rfl

/-- A frame of reports: t differs from s only in what logging an error, an emergency, an interrupt source or a change of node
state writes. -/
def reportsOnly (s t : State) : Prop :=
  t = { s with node := t.node, mgmt := t.mgmt, dict := t.dict, msix := t.msix, sent := t.sent, rst := t.rst, l2 := t.l2 }

theorem reportsOnly_refl (s : State) : reportsOnly s s := rfl

theorem reportsOnly_trans {s t u : State} (h : reportsOnly s t) (h' : reportsOnly t u) : reportsOnly s u := by
  unfold reportsOnly at *
  rw [h', h]

theorem reportsOnly_l2Event (s : State) (n : Nat) : reportsOnly s (s.l2Event n) := by
  unfold State.l2Event; split <;> rfl

theorem reportsOnly_msixEvent (s : State) (fn vec : Nat) : reportsOnly s (s.msixEvent fn vec) := by
  unfold reportsOnly; rw [State.msixEvent_frame]

theorem reportsOnly_logErr (s : State) (code detail : Nat) : reportsOnly s (s.logErr code detail) := rfl

/-- An emergency is held and queued, or counted, and raised on vector 0 (16 R472). -/
theorem reportsOnly_emergency (s : State) (code detail : Nat) : reportsOnly s (s.emergency code detail) := by
  unfold State.emergency
  dsimp only
  split
  · rfl
  · split <;> exact reportsOnly_trans (by rfl) (reportsOnly_msixEvent _ 16 0)

/-- A fatal error is logged, latched and reported, and the node state is FAULT (17 R503, R504). -/
theorem reportsOnly_fatal (s : State) (code detail : Nat) : reportsOnly s (s.fatal code detail) := by
  have fails : ∀ u v : State, reportsOnly s u → v = (if u.node = .fault then u else u.msixEvent 16 0) → reportsOnly s
      (({ v with node := .fault, mgmt := { v.mgmt with chainOut := v.mgmt.chainOut || (v.node = .init && decide (v.mgmt.addr ≠ 0)) } } : State).msixEvent
        16 3) := by
    intro u v h e
    refine reportsOnly_trans ?_ (reportsOnly_msixEvent _ 16 3)
    have h' : reportsOnly s v := by
      rw [e]; split
      · exact h
      · exact reportsOnly_trans h (reportsOnly_msixEvent ..)
    exact reportsOnly_trans h' rfl
  unfold State.fatal
  exact fails _ _ (by rfl) rfl

theorem State.msixEvent_node (s : State) (fn vec : Nat) : (s.msixEvent fn vec).node = s.node := by
  rw [State.msixEvent_frame]

theorem State.fatal_node (s : State) (code detail : Nat) : (s.fatal code detail).node = .fault := by
  unfold State.fatal
  dsimp only
  rw [State.msixEvent_node]

/-- A frame of the cores: t differs from s in cores, in the dispatcher's abort marks, and in reports. -/
def coresOnly (s t : State) : Prop :=
  t = { s with
    cores := t.cores, disps := t.disps, node := t.node, mgmt := t.mgmt, dict := t.dict, msix := t.msix, sent := t.sent
    rst := t.rst, l2 := t.l2 }

theorem coresOnly_refl (s : State) : coresOnly s s := rfl

theorem coresOnly_trans {s t u : State} (h : coresOnly s t) (h' : coresOnly t u) : coresOnly s u := by
  unfold coresOnly at *
  rw [h', h]

theorem coresOnly_of_reportsOnly {s t : State} (h : reportsOnly s t) : coresOnly s t := by
  unfold coresOnly
  unfold reportsOnly at h
  rw [h]

theorem coresOnly_modCore (s : State) (k : Nat) (f : Core → Core) : coresOnly s (s.modCore k f) := rfl

/-- A controller that halts is reported, and its skein will abort (12 R361). -/
theorem coresOnly_haltCore (s : State) (k : Nat) : coresOnly s (s.haltCore k) := by
  unfold State.haltCore
  dsimp only
  split
  · have h : ∀ u : State, reportsOnly u (((u.l2Event (512 + k)).logErr 0x2005 k).emergency 0x0041 k) := fun u =>
      reportsOnly_trans (reportsOnly_trans (reportsOnly_l2Event ..) (reportsOnly_logErr ..)) (reportsOnly_emergency ..)
    exact coresOnly_trans (by rfl) (coresOnly_of_reportsOnly (h _))
  · have h : ∀ u : State, reportsOnly u (((u.l2Event (3 + (k - 128))).logErr 0x2006 (k - 128)).emergency 0x0040 (k - 128)) := fun u =>
      reportsOnly_trans (reportsOnly_trans (reportsOnly_l2Event ..) (reportsOnly_logErr ..)) (reportsOnly_emergency ..)
    split
    · exact coresOnly_trans (coresOnly_modCore s k fun _ => _)
        (coresOnly_of_reportsOnly (reportsOnly_trans (h _) (reportsOnly_fatal ..)))
    · exact coresOnly_trans (coresOnly_modCore s k fun _ => _) (coresOnly_of_reportsOnly (h _))

/-- Taking an exception writes the core; a fetch fault at the vector halts it (12 R358, R361). -/
theorem coresOnly_takeException (s : State) (k code : Nat) (epc eaddr : DWord) (acc : Nat) (imp : Bool) :
    coresOnly s (s.takeException k code epc eaddr acc imp) := by
  unfold State.takeException State.vectorCheck
  dsimp only
  split
  · exact coresOnly_trans (coresOnly_modCore s k _) (coresOnly_haltCore _ k)
  · exact coresOnly_modCore s k _

/-- A frame of the rings: t differs from s only in what answering a partition writes. -/
def ringsOnly (s t : State) : Prop :=
  t = { s with rings := t.rings, cxlCache := t.cxlCache, msix := t.msix, sent := t.sent, l2 := t.l2 }

theorem ringsOnly_refl (s : State) : ringsOnly s s := rfl

theorem ringsOnly_trans {s t u : State} (h : ringsOnly s t) (h' : ringsOnly t u) : ringsOnly s u := by
  unfold ringsOnly at *
  rw [h', h]

theorem ringsOnly_setRing (s : State) (p r : Nat) (x : Ring) : ringsOnly s (s.setRing p r x) := rfl

theorem ringsOnly_ringPut (s : State) (p r e : Nat) : ringsOnly s (s.ringPut p r e) := s.ringPut_frame p r e

/-- An event on an admission ring writes only the ring, host memory and the vector (15 R435). -/
theorem ringsOnly_anqEvent (s : State) (p kind detail rel status seq : Nat) :
    ringsOnly s (s.anqEvent p kind detail rel status seq) := by
  unfold State.anqEvent
  dsimp only
  split
  · exact ringsOnly_refl s
  · split
    · exact ringsOnly_setRing ..
    · have h : ∀ u : State, ringsOnly s u → ringsOnly s (if (u.ring p 1).room = 0 then u.setRing p 1 (u.ring p 1).lose
          else u.ringPut p 1 (eventEntry kind detail rel status seq u.now)) := by
        intro u hu
        split
        · exact ringsOnly_trans hu (ringsOnly_setRing ..)
        · exact ringsOnly_trans hu (ringsOnly_ringPut ..)
      have now : ∀ u : State, ringsOnly s u → u.now = s.now := by
        intro u hu
        unfold ringsOnly at hu
        rw [hu]; rfl
      have put := ringsOnly_trans (ringsOnly_setRing s p 1 { s.ring p 1 with lostSince := 0 })
        (ringsOnly_ringPut _ p 1 (eventEntry 9 (s.ring p 1).lostSince 0 0 0 s.now))
      by_cases e : (s.ring p 1).lostSince = 0
      · rw [if_pos e]; exact h s (ringsOnly_refl s)
      · rw [if_neg e]; have x := h _ put; rwa [now _ put] at x

theorem ringsOnly_anqAnswer (s : State) (p code tag detail : Nat) : ringsOnly s (s.anqAnswer p code tag detail) :=
  ringsOnly_ringPut ..

theorem ringsOnly_ccqAnswer (s : State) (p op tag code detail : Nat) : ringsOnly s (s.ccqAnswer p op tag code detail) := by
  unfold State.ccqAnswer
  dsimp only
  split
  · exact ringsOnly_ringPut ..
  · exact ringsOnly_setRing ..

/-- A frame of the queues: t differs from s in the queue engine, in level 2's sources, and in the reservations that a write of a
cell clears (08 R286). -/
def queuesOnly (s t : State) : Prop := t = { s with qe := t.qe, cores := t.cores, l2 := t.l2 }

theorem queuesOnly_refl (s : State) : queuesOnly s s := rfl

theorem queuesOnly_trans {s t u : State} (h : queuesOnly s t) (h' : queuesOnly t u) : queuesOnly s u := by
  unfold queuesOnly at *
  rw [h', h]

/-- A watermark group that changes may raise its source (06 R227, R228). -/
theorem queuesOnly_wmUpdate (s : State) (g : Nat) : queuesOnly s (s.wmUpdate g) := by
  suffices h : ∀ (b : Bool), queuesOnly s (if b = (s.wmGroup g).asserted then s
      else if (s.wmGroup g).irqen then (s.setWm g { s.wmGroup g with asserted := b, change := true }).l2Event (256 + g)
      else s.setWm g { s.wmGroup g with asserted := b, change := true }) by
    exact h _
  intro b
  split
  · exact queuesOnly_refl s
  · split
    · unfold State.l2Event; split <;> rfl
    · rfl

theorem queuesOnly_putQueue (s : State) (q : Nat) (x : Queue) (taken freed : Nat) : queuesOnly s (s.putQueue q x taken freed) := by
  unfold State.putQueue
  dsimp only
  split
  · exact queuesOnly_trans (t := ((s.freeCells (goneItems (s.queue q).items x.items)).linkQueue q x).poolFree fun n => n + freed - taken)
      rfl (queuesOnly_wmUpdate ..)
  · rfl

/-! ## The values of the dictionary -/

theorem State.dget_dset (s : State) (i j v a b : Nat) :
    (s.dset i j v).dget a b = if dkey a b = dkey i j then v else s.dget a b := by
  unfold State.dget State.dset
  dsimp only
  by_cases h : dkey a b = dkey i j
  · rw [if_pos h, h]; exact tabGet_tabSet_same ..
  · rw [if_neg h]; exact tabGet_tabSet_other _ _ _ _ h

theorem State.l2Event_pend (s : State) (n m : Nat) :
    tabGet false (s.l2Event n).l2.pend m = ((l2Valid n && decide (m = n)) || tabGet false s.l2.pend m) := by
  unfold State.l2Event
  split
  · rename_i h
    dsimp only
    by_cases e : m = n
    · subst e; rw [tabGet_tabSet_same]; simp [h]
    · rw [tabGet_tabSet_other _ _ _ _ e]; simp [e]
  · rename_i h
    simp [h]

end Sys2Proof.Machine
end

