-- ==== Sys2Proof/Laws/Memory.lean ====
section
/-! SUPPORT. Every operation that writes the bytes of memory, the context store or the reserved octets keeps their canonical form,
and reset has it. -/

namespace Sys2Proof.Machine
open Sys2Proof

theorem memWrite_wf (l : List Byte) (m : List Host.Cell) (a : Nat) (h : Memory.wf m = true) : Memory.wf (memWrite m a l) = true := by
  induction l generalizing m a with
  | nil => exact h
  | cons b r ih => exact ih _ _ (tabWf_tabSet memDflt m a b h)

theorem State.poke_wf (s : State) (a : Nat) (l : List Byte) (h : Memory.wf s.mem = true) : Memory.wf (s.poke a l).mem = true :=
  memWrite_wf l s.mem a h

theorem State.zeroRange_wf (s : State) (a n : Nat) (h : Memory.wf s.mem = true) : Memory.wf (s.zeroRange a n).mem = true :=
  tabWf_filter memDflt _ s.mem h

theorem State.copyRange_wf (s : State) (a b n : Nat) (h : Memory.wf s.mem = true) : Memory.wf (s.copyRange a b n).mem = true := by
  have key : ∀ (src : List Host.Cell) (m : List Host.Cell), Memory.wf m = true →
      Memory.wf (src.foldl (fun m e => tabSet (memDflt (b + (e.1 - a))) m (b + (e.1 - a)) e.2) m) = true := by
    intro src
    induction src with
    | nil => exact fun _ h => h
    | cons e r ih => exact fun m h => ih _ (tabWf_tabSet memDflt m _ e.2 h)
  exact key _ _ (s.zeroRange_wf b n h)

theorem State.scramble_wf (s : State) (a n : Nat) (h : Memory.wf s.mem = true) : Memory.wf (s.scramble a n).mem = true :=
  memWrite_wf _ s.mem a h

theorem State.setEntry_wf (s : State) (e : Nat) (x : Rec64) (h : tabWf (fun _ => (0 : Rec64)) s.store = true) :
    tabWf (fun _ => (0 : Rec64)) (s.setEntry e x).store = true :=
  tabWf_tabSet (fun _ => 0) s.store e x h

theorem State.setShadow_wf (s : State) (pc j v : Nat) (h : tabWf (fun _ => (0 : BitVec 16)) s.rsv = true) :
    tabWf (fun _ => (0 : BitVec 16)) (s.setShadow pc j v).rsv = true := by
  unfold State.setShadow
  split
  · exact h
  · exact tabWf_tabSet (fun _ => 0) s.rsv _ _ h

/-- Dropping entries, and giving those that stay another value that no unlisted key has, keeps the form. -/
theorem tabWfAbove_filterMap {α : Type} [DecidableEq α] (d : α) (f : Nat × α → Option (Nat × α))
    (hf : ∀ e x, f e = some x → x.1 = e.1 ∧ (e.2 ≠ d → x.2 ≠ d)) (t : Tab α) (b : Option Nat)
    (h : tabWfAbove (fun _ => d) b t = true) : tabWfAbove (fun _ => d) b (t.filterMap f) = true := by
  induction t generalizing b with
  | nil => rfl
  | cons e r ih =>
    obtain ⟨j, v⟩ := e
    rw [tabWfAbove_cons] at h
    obtain ⟨hb, hv, hr⟩ := h
    cases he : f (j, v) with
    | none => rw [List.filterMap_cons_none he]; exact ih _ (tabWfAbove_mono _ r b j (fun x hx => Nat.le_of_lt (hb x hx)) hr)
    | some x =>
      obtain ⟨k, w⟩ := x
      have hx := hf _ _ he
      rw [List.filterMap_cons_some he]
      obtain ⟨hk, hw⟩ := hx
      dsimp only at hk hw
      subst hk
      exact (tabWfAbove_cons ..).2 ⟨hb, hw hv, ih _ hr⟩

/-- The boundary of a stack's frame writes of the reserved octets only what its copy says. -/
theorem State.hbmBoundary_rsv (s : State) (k : Nat) :
    (s.hbmBoundary k).rsv = if (s.stack k).swap then
      s.rsv.filterMap fun e =>
        if e.1 / 128 / 32 = k then
          let v : BitVec 16 := BitVec.ofNat 16 (fld e.2.toNat 0 8 * 257)
          if v = 0 then none else some (e.1, v)
        else some e
      else s.rsv := by
  unfold State.hbmBoundary
  dsimp only
  split
  · split
    · rfl
    · unfold State.l2Event; split <;> rfl
  · rfl

theorem State.hbmBoundary_wf (s : State) (k : Nat) (h : tabWf (fun _ => (0 : BitVec 16)) s.rsv = true) :
    tabWf (fun _ => (0 : BitVec 16)) (s.hbmBoundary k).rsv = true := by
  rw [State.hbmBoundary_rsv]
  split
  · refine tabWfAbove_filterMap 0 _ (fun e x hx => ?_) s.rsv none h
    dsimp only at hx
    split at hx
    · split at hx
      · cases hx
      · cases hx; exact ⟨rfl, fun _ => ‹_›⟩
    · cases hx; exact ⟨rfl, id⟩
  · exact h

theorem State.deviceReset_wf (s : State) (cause rail : Nat) (h : Memory.wf s.mem = true) :
    Memory.wf (s.deviceReset cause rail).mem = true := by
  unfold State.deviceReset
  dsimp only
  split
  · rfl
  · exact tabWf_filter memDflt _ s.mem h

theorem reset_memory_wf : Memory.wf State.reset.mem = true := rfl

end Sys2Proof.Machine
end

