-- ==== Sys2Proof/WellFormed.lean ====
section
/-! DEFINITION. Which terms of Instr stand for a command the hardware can present. Most operands have the width of the field
they come from; the checks below are those that a type does not make. exec gives a meaning to the other terms too: an
encoding that no instruction has raises Illegal Instruction, an access of a wrong size meets an error response. -/

namespace Sys2Proof

/-- A beat of the matrix moves 1 to 64 bytes, on the HS layers 1 to 256 (05 R203, R204). -/
def sizeOk : Master → BitVec 9 → Bool
  | .hs _, n => 1 ≤ n.toNat && n.toNat ≤ 256
  | _, n => 1 ≤ n.toNat && n.toNat ≤ 64

/-- A locked sequence has 1 to 16 beats (05 R207). -/
def beatsOk (n : BitVec 5) : Bool := 1 ≤ n.toNat && n.toNat ≤ 16

/-- A register is written 4 or 8 bytes at a time (05 R174, 08 R284). -/
def regSizeOk (n : BitVec 7) : Bool := n = 4 || n = 8

/-- SKIP has conditions 0 to 5 on two registers, 0 and 1 on one bit (08 R282). -/
def skipOk : SkipForm → Bool
  | .cmp cc _ _ => cc.toNat ≤ 5
  | .bit cc _ _ => cc.toNat ≤ 1

/-- A dictionary value has at most 8,192 bytes (15 Table 15-7, 16 R470). -/
def valueOk (l : List Byte) : Bool := l.length ≤ 8192

/-- The device has 18 temperature sensors (17 R499). -/
def samplesOk (l : List (BitVec 16)) : Bool := l.length = 18

/-- The payload of an Ethernet frame on the management port has 46 bytes or more (16 R464); one beyond 1,518 bytes of frame is
dropped
(R455). -/
def zmpOk (l : List Byte) : Bool := 46 ≤ l.length

/-- The PLLs of the device are numbered 0 to 6 (17 Table 17-10). -/
def pllOk (n : SegId) : Bool := n.toNat ≤ 6

/-- The operands of a command are ones the hardware can present. -/
def Instr.wellFormed : Instr → Bool
  | .matrixAccess m _ size _ => sizeOk m size
  | .lockedSequence _ _ beats _ => beatsOk beats
  | .registerWrite _ _ size _ => regSizeOk size
  | .bfx _ kind _ _ _ _ => kind ≠ 3
  | .ffma _ kind _ _ _ _ _ => kind ≠ 3
  | .skipCc _ f => skipOk f
  | .partitionTableWrite _ _ _ bytes => valueOk bytes
  | .patternCard _ _ bytes => valueOk bytes
  | .mailboxWrite _ _ _ bytes => valueOk bytes
  | .write _ _ _ _ bytes => valueOk bytes
  | .mcodePatch _ bytes => valueOk bytes
  | .temperatureSample temps => samplesOk temps
  | .zmpFrameReceive f => zmpOk f.bytes
  | .pllLostLock pll => pllOk pll
  | _ => true

end Sys2Proof
end

