-- ==== Sys2Proof/Tests/Slice0.lean ====
section
/-! SUPPORT. The model's own tests: ill-formed terms that the checks of WellFormed refuse; values that the manual prints or that
follow
from its tables by hand; and, for every statement of Certificates/Slice0/Obligations.lean that has hypotheses, a state and operands
that meet them (theorem wit_<statement>), clause by clause. Each runs at most one command on a small state. -/

namespace Sys2Proof.Tests
-- One proof at a time: many proofs by evaluation at once would each hold a thread.
set_option Elab.async false
open Sys2Proof Sys2Proof.Machine

/-- The state after a command; a stop would leave it. -/
def after (i : Instr) (s : State) : State :=
  match exec i s with
  | .next t => t
  | .fault _ => s
  | .refused _ => s

/-! ## WellFormed -/

theorem test_wf_size : Instr.wellFormed (.matrixAccess (.distaff 0) 0 65 ⟨.read, .ok⟩) = false ∧
    Instr.wellFormed (.matrixAccess (.distaff 0) 0 0 ⟨.read, .ok⟩) = false ∧ Instr.wellFormed (.matrixAccess (.distaff 0) 0 64 ⟨.read, .ok⟩) = true := by decide
theorem test_wf_beats : Instr.wellFormed (.lockedSequence (.distaff 0) 0 17 ⟨.read, .ok⟩) = false ∧
    Instr.wellFormed (.lockedSequence (.distaff 0) 0 16 ⟨.read, .ok⟩) = true := by decide
theorem test_wf_register : Instr.wellFormed (.registerWrite (.distaff 0) 0 2 0) = false ∧
    Instr.wellFormed (.registerWrite (.distaff 0) 0 8 0) = true := by decide
theorem test_wf_kinds : Instr.wellFormed (.bfx 0 3 1 1 0 0) = false ∧ Instr.wellFormed (.ffma 0 3 false 1 1 1 1) = false ∧
    Instr.wellFormed (.bfx 0 2 1 1 0 0) = true := by decide
theorem test_wf_skip : Instr.wellFormed (.skipCc 0 (.cmp 6 1 1)) = false ∧ Instr.wellFormed (.skipCc 0 (.bit 2 1 1)) = false ∧
    Instr.wellFormed (.skipCc 0 (.cmp 5 1 1)) = true := by decide
theorem test_wf_value (l : List Byte) (h : l.length = 8193) : Instr.wellFormed (.mcodePatch .pf l) = false := by
  simp [Instr.wellFormed, valueOk, h]
theorem test_wf_samples : Instr.wellFormed (.temperatureSample [0]) = false := by decide
theorem test_wf_zmp : Instr.wellFormed (.zmpFrameReceive ⟨0x88B5, List.replicate 45 0, true⟩) = false ∧
    Instr.wellFormed (.zmpFrameReceive ⟨0x88B5, List.replicate 46 0, true⟩) = true := by decide
theorem test_wf_pll : Instr.wellFormed (.pllLostLock 7) = false ∧ Instr.wellFormed (.pllLostLock 6) = true := by decide

/-! ## Small states -/

/-- Spindle 0 runs at its reset PC, with these general registers. -/
def spin (g : Tab DWord) : State :=
  State.reset.setCore 0 { Core.init 0 with run := .executing, cpu := { (Core.init 0).cpu with g := g } }

/-- The same with another change of the core's registers. -/
def spinWith (f : Cpu → Cpu) : State := State.reset.setCore 0 { Core.init 0 with run := .executing, cpu := f (Core.init 0).cpu }

/-! ## Parsal -/

theorem wit_IntegerAluWritesTable : State.reset.issues 128 [1, 2, 3] = true ∧ (spin []).issues 0 [0, 31, 31] = true := by decide
theorem wit_ImmediatesShiftsAndFields : (spin []).issues 0 [1, 2] = true ∧ (spin []).issues 0 [31] = true ∧
    (spin []).issues 0 [1, 2, 3] = true ∧ (31#6).toNat < 32 ∧ (63#6).toNat + (0#6).toNat + 1 ≤ 64 := by decide
theorem wit_MultipliesAndDivides : (spin []).issues 0 [30, 30 + 1, 1, 2] = true ∧ pairOk 30 = true ∧
    ((spin []).core 0).unitBusy .divider = false ∧ (spin [(1, 1 <<< 63), (2, -1)]).issues 0 [30, 31, 1, 2] = true ∧
    (spin [(1, 1 <<< 63), (2, -1)]).g 0 1 = BitVec.intMin 64 ∧ (spin []).g 0 2 = 0 := by decide

/-- A divide and an addition in flight. -/
def inFlight : State := (spin []).modCore 0 fun c => { c with
  results := [{ unit := .divider, busy := true, writes := [(2, 5), (3, 1)], flags := 0 }, { unit := .float, busy := false, writes := [(4, 7)], flags := 1 }] }
theorem wit_CompletionsWriteResults : (inFlight.core 0).results.find? (fun x => x.unit = .divider) =
      some { unit := .divider, busy := true, writes := [(2, 5), (3, 1)], flags := 0 } ∧
    (inFlight.core 0).results.find? (fun x => x.unit = .float && x.writes.any fun w => w.1 = 4) =
      some { unit := .float, busy := false, writes := [(4, 7)], flags := 1 } := by decide
theorem wit_ControlTransfersGoToTargets : (spin []).issues 0 [1, 2] = true ∧ (spin []).issues 0 [1] = true ∧ (spin []).issues 0 [] = true ∧
    (spin []).issues 0 [31] = true ∧ ((spin []).g 0 1 + (1#16).signExtend 64 * 4).toNat % 4 = 0 := by decide

/-- Spindle 0 in partition 0, which has the first granule of HBM and hank 0; segment 1 covers the device's addresses. -/
def wired (g : Tab DWord) : State :=
  let s := spinWith fun u => { u with g := g, sgb := [(0, 0x8000000000000000)], sgl := [(0, 0x000700000001FFFF), (1, 0x0003FFFFFFFFFFFF)] }
  { s with parts := [(0, { spin0 := 1, mode := 1 })], granOwn := [(0, 0)], hanks := [(0, { owner := 0 })] }
theorem wit_LoadsWriteRegister :
    (wired []).issues 0 [1, 2] = true ∧ ((wired []).cpu 0).segFault 0 ((wired []).g 0 2 + (16#13).signExtend 64) 8 true false = none ∧
    ((wired []).begun 0).place 0 (((wired []).cpu 0).segAddr 0 ((wired []).g 0 2 + (16#13).signExtend 64)) 8 =
      some (.loc 0x014000000010 false) ∧
    (((wired []).begun 0).core 0).bufCheck 0x014000000010 8 = .none ∧
    ((wired []).cpu 0).segFault 1 ((wired []).g 0 2 + (16#13).signExtend 64) 8 true false = none ∧
    ((wired []).begun 0).place 0 (((wired []).cpu 0).segAddr 1 ((wired []).g 0 2 + (16#13).signExtend 64)) 8 = some (.dev 16) ∧
    isOwnHbm 0 16 8 = true ∧ (wired []).ownHbm 0 16 8 = true ∧ (wired []).entryRoom 0 16 8 = true ∧
    ((wired []).begun 0).place 0 0x010000000010 8 = some (.dev 0x010000000010) ∧ isOwnHbm 0 0x010000000010 8 = false ∧
    ((wired []).begun 0).coreReach 0 0x010000000010 8 ≠ .wait ∧ isOwnHbm 0 0x4000000 8 = true ∧ (wired []).ownHbm 0 0x4000000 8 = false := by decide
theorem wit_LoadsWriteRegister_forward : ({ (Core.init 0) with storeBuf := [⟨8, [1, 2, 3, 4, 5, 6, 7, 8]⟩] }).bufCheck 10 2 = .forward [3, 4] := by decide
theorem wit_LoadsWriteRegister_return :
    ((spinWith fun u => { u with outLoad := some ⟨.d, 1, 0, some 5, 0⟩ }).cpu 0).outLoad = some ⟨.d, 1, 0, some 5, 0⟩ ∧
    ((spinWith fun u => { u with outLoad := some ⟨.d, 1, 0, none, 0⟩ }).cpu 0).outLoad = some ⟨.d, 1, 0, none, 0⟩ := by decide
theorem wit_StoresWriteMemory :
    (wired []).issues 0 [1, 2] = true ∧ ((wired []).cpu 0).segFault 0 ((wired []).g 0 2 + (16#13).signExtend 64) 8 false true = none ∧
    ((wired []).core 0).storeBuf.length + (storeEnts 0x014000000011 (bytesOfNat 8 0)).length ≤ 4 ∧
    ((wired []).cpu 0).segFault 1 ((wired []).g 0 2 + (16#13).signExtend 64) 8 false true = none ∧
    ((wired []).begun 0).coreReach 0 0x010000000010 8 = .ok ∧ isOwnHbm 0 16 8 = true ∧ (wired []).ownHbm 0 16 8 = true ∧
    (wired []).entryRoom 0 16 8 = true ∧ ((wired []).begun 0).coreReach 0 0x001800000000 8 ≠ .wait ∧ isOwnHbm 0 0x001800000000 8 = false ∧
    isOwnHbm 0 0x4000000 8 = true ∧ (wired []).ownHbm 0 0x4000000 8 = false ∧
    (((wired []).begun 0).coreAccess 0 0x4000000 8 (.write 0)).1 = none ∧
    (((wired []).begun 0).coreAccess 0 0x001800000000 8 (.write 0)).1 = none := by decide
theorem wit_StoresWriteMemory_buffer : (((spin []).modCore 0 fun c => { c with storeBuf := [⟨0x014000000000, [1]⟩] }).core 0).storeBuf =
    [⟨0x014000000000, [1]⟩] := by decide

/-- A doubleword of the data RAM of spindle 0, reserved. -/
def reserved : State := spinWith fun u => { u with g := [(2, 0x10000)], resv := some (0x014000010000 / 32) }
theorem wit_AtomicsHoldReservation :
    reserved.quiet 0 = true ∧ ((reserved.cpu 0).segAddr 0 (reserved.g 0 2)).toNat % 8 = 0 ∧
    (reserved.begun 0).place 0 ((reserved.cpu 0).segAddr 0 (reserved.g 0 2)) 8 = some (.loc 0x014000010000 true) ∧
    atomicPlace 0 (some (.loc 0x014000010000 true)) = true ∧ reserved.issues 0 [1, 2] = true ∧ reserved.issues 0 [1, 2, 3] = true ∧
    (reserved.cpu 0).segFault 0 (reserved.g 0 2) 8 true true = none ∧ (reserved.cpu 0).segFault 0 (reserved.g 0 2) 8 true false = none ∧
    (reserved.cpu 0).segFault 0 (reserved.g 0 2) 8 false true = none ∧ (reserved.cpu 0).resv = some (granuleOf (.loc 0x014000010000 true)) ∧
    (reserved.begun 0).lockWaits (.loc 0x014000010000 true) = false := by decide
theorem wit_AtomicsHoldReservation_run :
    (∃ v s1, (reserved.begun 0).elemRead 0 0 (reserved.g 0 2) 8 false .ok = .done v s1) ∧
    (∃ s1, (reserved.begun 0).elemWrite 0 0 (reserved.g 0 2) 8 5 = .done () s1) ∧
    (∃ v s1 s2, (reserved.begun 0).elemRead 0 0 (reserved.g 0 2) 8 true .ok = .done v s1 ∧ s1.elemWrite 0 0 (reserved.g 0 2) 8 1 = .done () s2) ∧
    ((spin [(2, 0x10000)]).cpu 0).resv ≠ some (granuleOf (.loc 0x014000010000 true)) :=
  ⟨⟨_, _, rfl⟩, ⟨_, rfl⟩, ⟨_, _, _, rfl, rfl⟩, by decide⟩

/-- One element left of a move within the data RAM, and none. -/
def moving (n : DWord) : State := spin [(1, n), (2, 0x10000), (3, 0x10008)]
theorem wit_RepMovesOneElement :
    (moving 1).issues 0 [1, 2, 3] = true ∧ ((moving 1).core 0).storeBuf = [] ∧ (moving 1).g 0 1 ≠ 0 ∧ (moving 0).g 0 1 = 0 ∧
    (moving (-1)).g 0 1 ≠ 0 ∧ (moving 0).issues 0 [1, 2, 3] = true := by decide
theorem wit_RepMovesOneElement_run :
    (∃ v s1 s2, ((moving 1).begun 0).elemRead 0 0 ((moving 1).g 0 2) 8 false .ok = .done v s1 ∧ s1.elemWrite 0 0 ((moving 1).g 0 3) 8 v = .done () s2) ∧
    (∃ s1, ((moving 1).begun 0).elemWrite 0 0 ((moving 1).g 0 3) 8 ((moving 1).g 0 2).toNat = .done () s1) ∧
    (∃ x y s1 s2, ((moving 1).begun 0).elemRead 0 0 ((moving 1).g 0 2) 8 false .ok = .done x s1 ∧ s1.elemRead 0 0 ((moving 1).g 0 3) 8 false .ok = .done y s2 ∧ x = y) ∧
    (∃ x s1, ((moving 1).begun 0).elemRead 0 0 ((moving 1).g 0 3) 8 false .ok = .done x s1 ∧ x ≠ ((moving 1).g 0 2).toNat) :=
  ⟨⟨_, _, _, rfl, rfl⟩, ⟨_, rfl⟩, ⟨_, _, _, _, rfl, rfl, by decide⟩, ⟨_, _, rfl, by decide⟩⟩


/-- Spindle 0 in U mode. -/
def user : State := spinWith fun u => { u with st := 0 }
/-- Spindle 0 with its vectors in instruction RAM. -/
def vectored : State := spinWith fun u => { u with vbase := 0x8000000000000000, sgl := [(0, 0x000700000001FFFF)], sgb := [(0, 0x8000000000000000)] }
theorem wit_ExceptionEntryWritesState :
    ((State.reset.modCore 0 fun x => { x.drain with run := .executing }).setPc 0 0x1040).fetchFault 0 0x1040 ≠ none ∧
    ((vectored.modCore 0 fun x => { x.drain with run := .executing }).setPc 0 0x80000000000017C0).fetchFault 0 0x80000000000017C0 = none := by
  decide
theorem wit_SystemCallAndReturn :
    (user.cpu 0).pl = 0 ∧ user.issues 0 [] = true ∧ (spin []).issues 0 [] = true ∧ ((spin []).cpu 0).pl ≠ 0 ∧
    returnFaults 0 ((spin []).cpu 0).pl ((spin []).cpu 0).est = false ∧
    ((spinWith fun u => { u with est := 32 }).cpu 0).pl ≠ 0 ∧ 32 ≤ ((spinWith fun u => { u with est := 32 }).cpu 0).est.toNat ∧
    ((spinWith fun u => { u with epc := idleMarker }).cpu 0).epc = idleMarker ∧
    0xF0000000 ≤ (0xF0000000#32).toNat ∧ (0x15#32).toNat % 64 = 0x15 ∧ (0x15#32).extractLsb' 26 6 = 0 ∧ (0x15#32).extractLsb' 6 5 = 0 ∧
    ((spin []).g 0 1 + (0#16).signExtend 64 * 4).toNat % 4 = 0 ∧ ((spin [(1, 2)]).g 0 1 + (0#16).signExtend 64 * 4).toNat % 4 ≠ 0 ∧
    (spin []).issues 0 [0, 0 + 1, 1, 2] = true ∧ skipCond (.cmp 6 1 2) (spin []) 0 = none ∧ (spin []).issues 0 (skipRegs (.cmp 6 1 2)) = true ∧
    user.issues 0 [5] = true := by decide
theorem wit_SynchronisationAndEnd :
    (((spin []).modCore 0 fun c => { c with failed := [8] }).core 0).failed = [8] ∧
    (spin []).quiet 0 = true ∧ ((spin []).begun 0).wfiWake 0 = false ∧
    (((spinWith fun u => { u with vbase := 1 }).setL1 0 { pend := 2, en := 2 }).begun 0).wfiWake 0 = true ∧ ((spin []).disp 0).running = none := by decide

/-- Partition 0, in M3, holds the first granule and hank 0; spindle 0 executes there, at address a. -/
def farCode (a : DWord) : State :=
  let s := spinWith fun u => { u with pc := a, sgb := [], sgl := [(0, 0x000701FFFFFFFFFF)] }
  { s with parts := [(0, { spin0 := 1, mode := 3 })], granOwn := [(0, 0)], hanks := [(0, { owner := 0 })] }
theorem wit_SynchronisationAndEnd_refill :
    let due (s : State) : Prop := (s.core 0).run = .executing ∧ (s.cpu 0).outLoad = none ∧ (s.cpu 0).sk = false ∧
      s.fetchFault 0 (s.pc 0) = none ∧ s.fetchReady 0 (s.pc 0).toNat = false ∧ s.coreReach 0 (s.pc 0).toNat 64 ≠ .wait
    due (farCode 0) ∧ due (farCode 0x010000000000) ∧ isOwnHbm 0 0x010000000000 64 = false ∧ ((farCode 0x010000000000).cpu 0).entered = false := by
  decide

/-- A guaranteed skein of stream 0, released at 0 with deadline 1000 and budget 100. -/
def skein : Skein := { ctx := 0, seq := 0, rel := 0, dl := 1000, relDl := 1000, bg := false, late := false, status := 0, budget := 100 }
/-- Spindle 0 runs this skein. -/
def running (x : Skein) (f : Disp → Disp) : State := (spin []).setDisp 0 (f { (spin []).disp 0 with running := some x })
theorem wit_SynchronisationAndEnd_skein :
    (running skein id).issues 0 [] = true ∧ ((running skein id).disp 0).running ≠ none ∧ ((running skein id).disp 0).stop = none ∧ ((running skein id).disp 0).overdue = false ∧
    ((running skein id).seqr 0).halted = false ∧ ((running skein id).seqr 0).quiet = true ∧ (running skein id).storesDone 0 = true ∧
    ((running { skein with budget := 0, past := 5 } id).disp 0).overdue = true ∧
    ((running skein id).cpu 0).pl ≠ 0 ∧ (((running skein id).setSeqr 0 { halted := true }).seqr 0).halted = true := by decide
theorem wit_SpecialRegistersReadAndWrite : (spin []).issues 0 [1] = true ∧ ((spin []).core 0).fpBusy = false ∧ ((spin []).cpu 0).pl ≠ 0 ∧
    (spin []).flushForced 0 = false ∧ State.reset.issues 128 [31] = true := by decide
theorem wit_FloatingPointIssuesResult :
    fF32 ∈ [fF16, fBF16, fF32, fF64] ∧ (0x3F800000 < 2 ^ fF32.width ∧ 0 < fld 0x3F800000 fF32.fb fF32.eb ∧ fld 0x3F800000 fF32.fb fF32.eb < 2 ^ fF32.eb - 1) ∧
    0x80000000 % 2 ^ (fF32.width - 1) = 0 ∧ (spin []).issues 0 [1, 2, 3] = true ∧ ((spin []).core 0).unitBusy .float = false ∧
    (((spin []).begun 0).fpEnv 0 false).strap = false ∧ (((spinWith fun u => { u with fctl := 0x10 }).begun 0).fpEnv 0 false).strap = true ∧
    (spin []).issues 0 [1, 2, 3, 4] = true := by decide
theorem wit_FloatingPointIssuesResult_strap :
    (fpOp 0 true (((spinWith fun u => { u with fctl := 0x10 }).begun 0).fpEnv 0 false) 0x3FF0000000000000 0).isSome = true ∧
    fpOp 0 true (((spinWith fun u => { u with fctl := 0x10 }).begun 0).fpEnv 0 false) 1 0 = none := by decide
theorem wit_ShortVectorElements :
    (∀ j, 1 ≤ j → j < 1 + 2 → (fun j => some (j, 0) : Nat → ERes) j = some ((fun j => (j, 0)) j)) ∧ (spin []).issues 0 [1, 2] = true ∧
    (12#5).toNat ≤ 12 ∧ 12 < (13#5).toNat := ⟨fun _ _ _ => rfl, by decide, by decide, by decide⟩

/-- LEN 2, elements of 32 bits, one register to a ply. -/
def vectors : State := spinWith fun u => { u with svl := ((after (.setvl 0 1 2 4 0) (spin [(2, 2)])).cpu 0).svl }
theorem wit_ShortVectorsWriteVd :
    svLen (vectors.cpu 0).svl = 2 ∧ svAluIllegal (vectors.cpu 0).svl 0 1 2 3 = false ∧ svAluIllegal (vectors.cpu 0).svl 0x14 1 2 3 = false ∧
    svAluIllegal (vectors.cpu 0).svl 0x15 1 2 3 = false ∧ svMulIllegal (vectors.cpu 0).svl 0 0 1 2 3 = false ∧
    vectors.issues 0 [] = true ∧ vectors.issues 0 [2] = true ∧ vectors.issues 0 [1, 3] = true := by decide
theorem wit_ShortVectorMemory :
    plyOk 1 (svPly ((vectors.begun 0).cpu 0).svl) = true ∧ plyOk 4 4 = true ∧ svLen ((vectors.begun 0).cpu 0).svl ≤ 16 := by decide
theorem wit_ShortVectorMemory_run :
    (∃ vec s1, State.svMem 0 0 4 (fun j => BitVec.ofInt 64 (0x10000 + j * 4)) false (elemData []) (svPart true 4 0 2) 2 0 0 (vectors.begun 0) = SvEnd.done vec s1) ∧
    (∃ j code a vec s1, State.svMem 0 0 4 (fun j => BitVec.ofInt 64 (1 + j * 4)) true (fun _ => (.ok : DataCheck)) (svPart true 4 0 2) 2 0 0 ((spinWith fun u => { u with sgl := [] }).begun 0) = SvEnd.fault j code a vec s1) :=
  ⟨⟨_, _, rfl⟩, ⟨_, _, _, _, _, rfl⟩⟩

/-! ## CP1, CP2, CP0 -/

/-- Queue 5: ACTIVE, of partition 0, Keep, with four credits and one item. -/
def queue5 : Queue := { state := .active, owner := 0, baseClim := 4, clim := 4, prod := 1, items := [{ len := 8, payload := 7 }] }
/-- Partition 0 has spindle 0 and queue 5. -/
def queued : State := { wired [(1, 5), (2, 0x10000)] with qe := { State.reset.qe with queues := [(5, queue5)], boot := false, free := 1000 } }
theorem wit_QueuePortInstructions :
    ((queued.g 0 1).toNat < 65536) ∧ (queued.begun 0).reachesQueue (coreMaster 0) 5 = true ∧ (queued.begun 0).regionHolds 5 = false ∧
    queued.issues 0 [3, 1] = true ∧ queued.issues 0 [3, 1, 2] = true := by decide
theorem wit_QueuePortInstructions_run :
    (∃ v s1, (queued.begun 0).elemRead 0 0 (queued.g 0 2 &&& ~~~63) 64 false .ok = .done v s1 ∧ s1.g 0 1 = queued.g 0 1 ∧ s1.reachesQueue (coreMaster 0) 5 = true ∧
      s1.regionHolds 5 = false) ∧
    (∃ s0, (queued.begun 0).elemWrite 0 0 (queued.g 0 2 &&& ~~~63) 64 0 = .done () s0) ∧
    (∃ s2, ((queued.begun 0).cp1Pop 0 5 .ok).2.elemWrite 0 0 (queued.g 0 2 &&& ~~~63) 64
      (popWord ((queued.begun 0).cp1Pop 0 5 .ok).1) = .done () s2) :=
  ⟨⟨_, _, rfl, by decide, by decide, by decide⟩, ⟨_, rfl⟩, ⟨_, rfl⟩⟩
/-- A read of the check unit in flight, due at u = 3. -/
def inFlight2 : State := (spin []).modCore 0 fun c => { c with
  results := [{ unit := .cp2, busy := false, writes := [(1, 5)], flags := 0, due := some 3 }] }
theorem wit_CheckUnitInstructions :
    (inFlight2.core 0).results = [{ unit := .cp2, busy := false, writes := [(1, 5)], flags := 0, due := some 3 }] ∧
    (spin []).issues 0 [1] = true ∧ (spin []).issues 0 [] = true ∧ (spin []).issues 0 [1, 2] = true ∧ ((spin []).check 0).v = false ∧
    (((spin []).setCheck 0 { v := true, lv := 5 }).check 0).v = true ∧ ((6#8 - 5#8).toNat = 1 ∧ (5#8 - 5#8).toNat = 0 ∧ (7#8 - 5#8).toNat = 2 ∧
      (4#8 - 5#8).toNat = 255 ∧ (132#8 - 5#8).toNat = 127) := by decide
theorem wit_VopIssueFillsSlot : (spin []).issues 0 [] = true ∧ vopListed 1 = true ∧ vopListed 0 = false ∧
    (((spin []).seqr 0).slot 0).state = .free ∧ ((spin []).seqr 0).halted = false ∧
    (((spin []).setSeqr 0 { halted := true }).seqr 0).halted = true := by decide

/-! ## VOPs -/

/-- A VADD of two float32 elements within the scratch hank 0, in slot 0 of spindle 0, whose skein runs. -/
def adding : State :=
  let s := wired []
  let s := { s with disps := [(0, { running := some skein })] }
  let d (b : Nat) : BitVec 128 := BitVec.ofNat 128 (0x010000000000 + b + 2 ^ 48 + 10 * 2 ^ 72)
  let x : VSlot := { state := .running, opc := 1, d := d 0, a := d 64, b := d 128, vlen := 2 }
  { s with seqrs := [(0, { slots := [(0, x)], next := 1 })] }
theorem wit_VopStepAndDone :
    adding.vActive 0 = true ∧ ((adding.seqr 0).slot 0).state = .running ∧
    vopInfo ((adding.seqr 0).slot 0).ops.opc = some (.map, true, true, false) ∧
    ((adding.seqr 0).slot 0).elem < ((adding.seqr 0).slot 0).ops.total ∧
    adding.tapRoom 0 0 ((adding.seqr 0).slot 0).ops.d (min (((adding.seqr 0).slot 0).ops.stepLen .map) 2) = true ∧
    (adding.seqr 0).halted = false ∧ adding.vRoom 0 0 ((adding.seqr 0).slot 0).ops = true := by decide
/-- The step's own fill of the ports. -/
theorem wit_VopStepAndDone_fill :
    let x := (adding.seqr 0).slot 0
    let m := min (x.ops.stepLen .map) (x.ops.vlen - x.elem)
    let u := adding.vFill 0 0 x ((List.range m).flatMap fun j => x.ops.reads (x.elem + j))
    ((rowRun (u.vMapRow 0 0 x x.ops []) m x.elem []).map fun r => (r.1.length, r.2)) = some (2, none) := by decide +kernel
theorem wit_VopIssueFillsSlot_run : issueFault (adding.seqr 0) ((adding.seqr 0).slot 0).ops = none := by decide

/-- The same with no elements: it is done at once. -/
def empty : State :=
  let q := adding.seqr 0
  adding.setSeqr 0 (q.setSlot 0 { q.slot 0 with vlen := 0 })
theorem wit_VopStepAndDone_done : empty.vActive 0 = true ∧ ((empty.seqr 0).slot 0).state = .running ∧
    ((empty.seqr 0).slot 0).ops.total ≤ ((empty.seqr 0).slot 0).elem ∧ (empty.vClose 0 0).vWritten 0 0 = true := by decide

/-- Slot 3 is STOPPED and the sequencer halted. -/
def stoppedSlot : State := (spin [(1, 9)]).setSeqr 0 { halted := true, slots := [(3, { state := .stopped, elem := 1, vlen := 2, opc := 1 })], vslotsel := 3 }
theorem wit_VopWaitResumeDiscard :
    (spin []).issues 0 [1] = true ∧ ((spin []).seqr 0).halted = false ∧ (((spin []).seqr 0).slot 3).state = .free ∧
    stoppedSlot.issues 0 [] = true ∧ stoppedSlot.issues 0 [1] = true ∧ (stoppedSlot.seqr 0).halted = true ∧
    ((stoppedSlot.seqr 0).slot 3).state = .stopped ∧ ((stoppedSlot.seqr 0).slot 2).state = .free ∧
    (stoppedSlot.seqr 0).slots.all (fun e => e.1 = 3) = true := by decide

/-- Spindle 0 has a read outstanding, and every octet serves. -/
def asking : State := { wired [] with disps := [(0, { running := some skein })], hbmReqs := [(0, [{ src := .port 0 0, ctx := some 0, block := 5, write := false }])] }
/-- The same of a partition in M3, whose requests use Throughput service, with a request of the controller that a load waits for. -/
def asking3 (r : HbmReq) : State :=
  let s := { asking with parts := [(0, { spin0 := 1, mode := 3 })], hbmReqs := [(0, [r])] }
  s.modCore 0 fun c => { c with cpu := { c.cpu with outLoad := some { op := .d, rd := 1, addr := 1280, resp := some 0, waits := 1 } } }
theorem wit_SequencerAndHbmRequests :
    stoppedSlot.issues 0 [1] = true ∧ ((stoppedSlot.seqr 0).slot (stoppedSlot.seqr 0).vslotsel).state = .stopped ∧
    ((spin [(1, 16777216)]).g 0 1).toNat % 2 ^ 25 ≤ 16777216 ∧
    ((asking.reqs 0)[0]?).isSome = true ∧ ((asking.reqs 0).take 0).any (fun y => y.block % 128 = 5) = false ∧
    (asking.disp 0).running ≠ none ∧ asking.vCtx 0 = some 0 ∧ (asking.disp 0).traceq = [] ∧ (asking.seqr 0).slots = [] ∧
    (asking3 { src := .core, ctx := some 0, block := 5, write := false }).octetServes 0 5 0 = true ∧
    (asking3 { src := .core, ctx := some 0, block := 5, write := false }).vCtx 0 = some 0 ∧
    (asking3 { src := .port 0 1, ctx := some 0, block := 5, write := false }).octetServes 0 5 0 = true ∧
    (asking3 { src := .port 0 1, ctx := some 0, block := 5, write := false, dropped := true }).octetServes 0 5 0 = true ∧
    (asking3 { src := .core, ctx := some 0, block := 5, write := true, data := [(1280, 7)] }).octetServes 0 5 0 = true ∧
    ((spin []).seqr 0).vslotsel = 0 ∧ (((spin []).seqr 0).slot 0).state = .free := by decide

/-! ## Streams -/

/-- An OPEN PERIODIC stream of partition 0 on spindle 0: T 2 ms, D 1 ms, queues 5 and 6, pricking 0. -/
def openCtx : Rec64 :=
  rset (rset (rset (rset (rset 0 0 0 3 stOpen) 1 0 30 2000000) 1 32 30 1000000) 3 0 16 5) 3 16 16 6
/-- A pricking of partition 0: entry point 0 of IRAM, budget 1000, one output item. -/
def prick0 : Rec64 := rset (rset (rset 0 0 56 1 1) 1 0 32 1000) 5 8 4 1

/-- Partition 0 in M1 with spindle 0, queues 5 and 6, pricking 0, and admission and submission rings with one entry to be read. -/
def site : State :=
  let q : Queue := { queue5 with prod := 4, items := [] }
  { wired [] with
    node := .operational
    parts := [(0, { spin0 := 1, mode := 1, ctxq := 10, egr := 1 })]
    store := [(262144 - 4096, prick0)]
    qe := { State.reset.qe with queues := [(5, { q with prod := 1 }), (6, q)], regions := [(0, { quota := 100 })], boot := false, free := 1000 }
    rings := [(0, { en := true, log2 := 6, pi := 1 }), (1, { en := true, log2 := 6 }), (2, { en := true, log2 := 6, pi := 1 }), (3, { en := true, log2 := 6 })] }

/-- Stream 7 of the site is live in this state. -/
def live (st : Nat) : State := { site with store := (7, rset openCtx 0 0 3 st) :: site.store }

/-- The open-stream request for that stream, on the spindle named. -/
def openReq0 (spindle : Nat) : Rec64 :=
  BitVec.ofNat 512 (1 + spindle * 2 ^ 48 + 2000000 * 2 ^ 64 + 1000000 * 2 ^ 160 + 5 * 2 ^ 224 + 6 * 2 ^ 240 + 1 * 2 ^ 256)
theorem wit_RefusedOpenChangesNothing :
    site.ringReady 0 0 = true ∧ recByte (openReq0 1) 0 1 = 1 ∧ ((site.ringTake 0 0).openReq 0 (reqOf (openReq0 1))).1 = cParameter ∧
    ((site.ringTake 0 0).openReq 0 (reqOf (openReq0 1))).2.1 = 13 := by decide +kernel
theorem wit_AcceptedOpenMakesContext : tabWf (fun _ => (0 : Rec64)) site.store = true ∧ site.prickUnits ≤ 256 ∧
    (site.openReq 0 (reqOf (openReq0 0))).1 = 0 ∧ (reqOf (openReq0 0)).period < 2 ^ 30 ∧ (reqOf (openReq0 0)).deadline < 2 ^ 30 := by decide +kernel
theorem wit_StreamRequestsAnswered :
    ((site.ringTake 0 0).openReq 0 (reqOf (openReq0 0))).1 = 0 ∧ (live stOpen).ringReady 0 0 = true ∧ ctxState ((live stOpen).entry 7) = stOpen ∧
    ctxState ((live stSuspended).entry 7) = stSuspended ∧ ctxState ((live stBackground).entry 7) = stBackground ∧
    ctxState ((live stDraining).entry 7) = stDraining ∧ ctxPart ((live stOpen).entry 7) = 0 ∧ ((live stOpen).part 0).resetting = false ∧ 7 < 262144 - (live stOpen).prickCount := by decide +kernel

/-- A release event of stream 7 at 1000 on spindle 0. -/
def event : RelEvent := { ctx := 7, seq := 1, rel := 1000, win := 0, status := 0, late := false, arrived := false }
/-- Stream 7 has released it; the time is 2000. -/
def released (arrived : Bool) : State := { live stOpen with
  disps := [(0, { events := [{ event with arrived := arrived }] })], time := { State.reset.time with tb := 2000 } }
theorem wit_ReleasesBecomeReady :
    (released false).ctxSpindles 7 = [0] ∧
    ((released false).disp 0).events.find? (fun w => w.ctx = 7 && !w.arrived) = some event ∧ ((released true).disp 0).drain = false := by decide +kernel
theorem wit_ReleasesBecomeReady_due (a : Bool) : (released a).dueEvent 0 = some { event with arrived := a } := by
  have h : 1585 ≤ (released a).mirror (0 / 8) := by
    have b : (released a).mirrorBound ≤ 100 := by cases a <;> decide +kernel
    have n : (released a).now = 2000 := by cases a <;> decide +kernel
    have m := Nat.mod_lt (Config.mirrorLag (0 / 8) (released a).now) (Nat.succ_pos (released a).mirrorBound)
    unfold State.mirror
    simp only [Nat.succ_eq_add_one] at m
    omega
  have d : ((released a).disp 0).events = [{ event with arrived := a }] := by cases a <;> decide +kernel
  simp [State.dueEvent, d, event, h]
theorem wit_ReleasesBecomeReady_held :
    let h : HeldArr := { ts := 900, win := 0, instant := 1000, blocked := false, status := 0, late := false, items := 1 }
    let s := { released true with streams := [(7, { held := [h] })] }
    (s.aux 7).held = h :: [] ∧ ctxRun (s.entry 7) = false ∧ h.instant ≤ s.now ∧ ctxLive (s.entry 7) = true ∧ s.node = .operational := by decide +kernel
theorem wit_PeriodicArrivalsClassified :
    (classifyPeriodic 10000 0 2000 100 none).kind = .onTime ∧ (classifyPeriodic 10100 0 2000 100 none).kind = .onTime ∧
    (classifyPeriodic 10101 0 2000 100 none).kind = .late ∧ (classifyPeriodic 11050 0 2000 100 none).kind = .late ∧
    (classifyPeriodic 11051 0 2000 100 none).kind = .early ∧ (classifyPeriodic 11051 0 2000 100 (some 6)).kind = .excess ∧
    (classifyPeriodic 10000 0 2000 100 (some 5)).kind = .excess := by decide +kernel

/-- The skein of stream 7 runs on spindle 0. -/
def busy (f : Disp → Disp) : State := { live stOpen with disps := [(0, f { running := some { skein with ctx := 7 } })] }
/-- It is ready. -/
def readied : State := { live stOpen with disps := [(0, { ready := [{ skein with ctx := 7 }] })] }
theorem wit_SaveThenRestore :
    let s := busy fun d => { d with preempt := true }
    (s.disp 0).running = some { skein with ctx := 7 } ∧ (s.disp 0).preempt = true ∧ (s.disp 0).ending = false ∧ (s.disp 0).stop = none ∧
    (s.core 0).run = .executing ∧ (s.core 0).results = [] ∧ (s.cpu 0).outLoad = none ∧
    (after (.save 0) s).canDispatch 0 = true ∧ ((after (.save 0) s).disp 0).best = ((after (.save 0) s).disp 0).saved.head?.map Prod.snd ∧
    ((after (.save 0) s).disp 0).saved.length = 1 ∧ ((after (.save 0) s).disp 0).handler = false ∧
    ((after (.save 0) s).disp 0).savedHandler = none ∧ { skein with ctx := 7 }.bg = false := by decide +kernel
theorem wit_SaveThenRestore_overrun :
    let s := busy fun d => { d with preempt := true, running := some { skein with ctx := 7, budget := 0 } }
    (s.disp 0).running = some { skein with ctx := 7, budget := 0 } ∧ (s.disp 0).preempt = true ∧ (s.disp 0).ending = false ∧
    (s.disp 0).stop = none ∧ (s.core 0).run = .executing ∧ (s.core 0).results = [] ∧ (s.cpu 0).outLoad = none := by decide +kernel
theorem wit_DispatchSetsCoreInDeadlineOrder :
    readied.canDispatch 0 = true ∧ (readied.disp 0).best = some { skein with ctx := 7 } ∧ (readied.disp 0).handler = false ∧ skein.image = none ∧
    skein.bg = false ∧ skein.traced = false := by decide +kernel
theorem wit_BudgetAndAbort :
    let s := busy fun d => { d with running := some { skein with ctx := 7, budget := 0, late := true } }
    let t := busy fun d => { d with stop := some .overrun }
    (s.disp 0).running = some { skein with ctx := 7, budget := 0, late := true } ∧ (s.disp 0).ending = false ∧ (s.disp 0).stop = none ∧
    (s.disp 0).ready = [] ∧ (s.disp 0).saved = [] ∧ (s.disp 0).events = [] ∧ (s.queue (ctxOutq (s.entry 7))).parked = none ∧
    (t.disp 0).stop = some .overrun ∧ s.ctxSpindles 7 = [0] ∧
    ((s.setDisp 0 { s.disp 0 with ending := true }).disp 0).ending = true ∧ ((s.setDisp 0 { s.disp 0 with ending := true }).disp 0).stop = none ∧
    windowStart 1 (s.aux 7).phase (ctxPeriod (s.entry 7)) ≤ ({ s with time := { s.time with tb := 2000000 } } : State).now := by decide +kernel

/-- KEND has completed with one staged item. -/
def committing (clim : Nat) : State :=
  let s := busy fun d => { d with running := some { skein with ctx := 7, staged := [{ len := 4, payload := 9 }] }, ending := true }
  s.setQueue 6 { s.queue 6 with clim := clim }
theorem wit_CommitAppendsOrParks :
    let e := (committing 4).entry 7
    ctxChkEn e = false ∧ ctxTimed e = false ∧ ctxOutq e = 6 ∧ ((committing 4).queue 6).inb = none ∧ ((committing 4).queue 6).state = .active ∧
    ((committing 4).region 0).scrubbing = false ∧ ((committing 4).queue 6).items.length + 1 ≤ ((committing 4).queue 6).clim ∧
    ((committing 0).queue 6).clim < ((committing 0).queue 6).items.length + 1 ∧ (committing 4).traceWaits 0 7 = false ∧
    ((committing 4).disp 0).ending = true := by decide +kernel
/-- A commit of one item is parked on queue 6. -/
def parked : State :=
  let z : Parked := ⟨7, 0, 0, 1000, 0, [{ len := 4, payload := 9 }], false, 0, 0, 0, 0, none, 0⟩
  (live stOpen).setQueue 6 { (live stOpen).queue 6 with parked := some z }
theorem wit_CommitAppendsOrParks_parked :
    ctxOutq (parked.entry 7) = 6 ∧ ((parked.queue 6).parked.map fun z => (z.ctx, z.items.length)) = some (7, 1) ∧
    (parked.region 0).scrubbing = false ∧ (parked.part (ctxPart (parked.entry 7))).records 0 = false ∧
    (parked.queue 6).items.length + 1 ≤ (parked.queue 6).clim ∧ (parked.queue 6).inb = none ∧ (parked.queue 6).state = .active ∧
    ctxChkEn (parked.entry 7) = false ∧ ctxTimed (parked.entry 7) = false := by decide +kernel
theorem wit_VopUnlistedIllegal : (spin []).issues 0 [] = true ∧ vopListed 0 = false ∧ vopListed 0x3FF = false := by decide

/-! ## Queues and ingress -/

/-- A window push of one byte. -/
def item1 : Rec64 := BitVec.ofNat 512 (7 + 2 ^ 448)
theorem wit_QueueWindowOperations :
    queued.reachesQueue (.pcie (.vf 0)) 5 = true ∧ queued.regionHolds 5 = false ∧ (queued.queue 5).state = .active ∧
    (itemOf item1).isSome = true ∧ (queued.queue 5).prod.toNat = pushClass (.pcie (.vf 0)) ∧ (queued.queue 5).items.length < (queued.queue 5).clim ∧
    (queued.queue 5).inb = none ∧ itemOf 0 = none ∧ itemOf (BitVec.ofNat 512 (57 * 2 ^ 448)) = none ∧ (queued.queue 5).prod.toNat ≠ pushClass (.distaff 0) ∧
    (queued.queue 5).items ≠ [] ∧ (queued.queue 5).flush = false ∧ ((queued.queue 5).items[(queued.queue 5).heldN]?).isSome = true ∧ (queued.queue 5).heldN = 0 ∧
    (let s := queued.setQueue 5 { queue5 with flush := true, items := [{ len := 8, payload := 7, poison := 3 }] };
      ((s.queue 5).items[(s.queue 5).heldN]?).any (fun i => i.poison ≠ 0) = true) ∧
    (let s := queued.setQueue 5 { queue5 with flush := true, items := [] };
      s.reachesQueue (.distaff 0) 5 = true ∧ (s.queue 5).items[(s.queue 5).heldN]? = none) ∧
    (let s := queued.setQueue 5 { queue5 with flush := true }; ((s.queue 5).items[(s.queue 5).heldN]?).isSome = true ∧ (s.queue 5).heldN = 0) := by
  decide +kernel
theorem wit_QueueCreateAndDelete :
    let s := queued.setQueue 5 { queue5 with items := [] }
    let t := queued.setQueue 5 { queue5 with state := .broken, busy := true }
    let u := queued.setQueue 5 { queue5 with state := .free, items := [], baseClim := 0, clim := 0 }
    (s.queue 5).state = .active ∧ (s.queue 5).items = [] ∧ s.stagedFor 5 = false ∧ (s.queue 5).outb = none ∧
    (t.queue 5).state = .broken ∧ (t.queue 5).busy = true ∧ (u.queue 5).state = .free ∧
    u.regionClim 0 + u.regionPark 0 + (u.queue 5).baseClim ≤ (u.region 0).quota ∧ (queued.queue 5).state ≠ .free ∧
    (s.queue 5).inb = none ∧ ((s.setQueue 5 { s.queue 5 with inb := some 7 }).queue 5).inb ≠ none ∧
    (queued.queue 5).state = .active ∧ (queued.queue 5).items ≠ [] ∧
    (let w := u.setQueue 5 { u.queue 5 with baseClim := 9 }; (w.region 0).quota < w.regionClim 0 + w.regionPark 0 + (w.queue 5).baseClim) ∧
    s.regionHolds 5 = false ∧ t.regionHolds 5 = false ∧ u.regionHolds 5 = false ∧
    (after (.regionScrub 0) s).regionHolds 5 = true ∧ (after (.regionScrub 0) u).regionHolds 5 = true := by decide +kernel
theorem test_sweep_bitmap :
    let t := queued.setQueue 5 { queue5 with state := .broken, busy := true }
    (after (.brokenSweepEnd ⟨5, [], true⟩) t).node = .fault ∧ ((after (.brokenSweepEnd ⟨5, [], true⟩) t).queue 5).state = .free ∧
    (after (.brokenSweepEnd ⟨5, [], false⟩) t).node = t.node := by decide +kernel
theorem wit_RegionsPoolAndFlowControl :
    queued.anyItem = true ∧ State.reset.anyItem = false ∧ ((after (.regionScrub 0) queued).region 0).scrubbing = true ∧
    ((after (.regionScrub 0) queued).region 0).heldOps = [] := by decide +kernel

/-- Sixty bytes of ether type 0x1234, and a rule of port 0 for it with queue 5 and a ring at the start of HBM. -/
def frame60 : List Byte := List.replicate 12 1 ++ [0x12, 0x34] ++ List.replicate 46 0
def rule0 : Rule := { port := 0, kind := 0xFE, etype := 0x1234, vlan := 0, ecpriId := 0, queue := 5, ringBase := 0, slotLog2 := 8, slots := 4, n := 0, part := 0 }
def ruled : State :=
  let s := queued.setQueue 5 { queue5 with prod := 0 }
  { s with node := .operational, qe := { s.qe with rules := [(0, some rule0)] } }
theorem wit_FramesAreDelivered :
    (ruled.portRate 0).isSome = true ∧ ruled.node ≠ .fault ∧ frame60.length = 60 ∧ ruled.testing 4 0 = false ∧
    (classifyFrame frame60).etype = 0x1234 ∧
    ruled.qe.rules.find? (fun e => match e.2 with | some r => r.matches 0 (classifyFrame frame60) | none => false) = some (0, some rule0) ∧
    (ruled.queue 5).hasCredit pcClassifier = true ∧ ruled.ownsRange 0 0 60 = true ∧ ruled.regionHolds 5 = false ∧ (ruled.queue 5).inb = none ∧
    site.qe.rules = [] ∧ tabGet none site.qe.defRule 0 = none := by decide +kernel

/-! ## Hanks, stacks, granules, the control matrix -/

/-- Hank 3 as given; the node is OPERATIONAL with its address and every core running. -/
def hanked (x : Hank) : State := { State.reset.setHank 3 x with node := .operational, mgmt := { State.reset.mgmt with addr := 1 } }
/-- A handover to partition 2 with fabric hoop 5, which scrubs. -/
def word0 : Word := BitVec.ofNat 32 (2 + 5 * 2 ^ 8 + 2 ^ 12 + 2 ^ 13)
theorem wit_HankHandoverAndScrub :
    let s := hanked {}
    (s.hank 3).pendBit = false ∧ ((word0.extractLsb' 0 5).toNat < 18 ∧ (word0.extractLsb' 8 4).toNat ≠ hoopOfHank 3) ∧ s.fabricOk 3 5 = true ∧
    word0.extractLsb' 0 5 ≠ (s.hank 3).owner ∧ word0.getLsbD 13 ≠ (s.hank 3).scrub ∧
    ((hanked { heldScrub := true }).hank 3).pendBit = true ∧ ((hanked { heldScrub := true }).hank 3).power = .on ∧
    ((hanked { pend := some ⟨2, 5, true, false⟩ }).hank 3).pend = some ⟨2, 5, true, false⟩ ∧ ((hanked { scrubbing := true }).hank 3).scrubbing = true ∧
    s.serves .pf = true ∧ widePath .pf = true ∧ (s.hank 3).owner ≠ (17#8).setWidth 5 ∧ s.hankInUse 3 = false ∧ s.testing 1 3 = false ∧
    (hanked {}).serves .zmp = true ∧ ((hanked {}).hank 3).faben = false ∧ 5 ≠ hoopOfHank 3 := by decide +kernel

/-- Record 0 reserves octet 0 of pseudo-channel 0 for spindle 1 of partition 2, which has it. -/
def recorded : State :=
  { hanked {} with
    parts := [(2, { spin0 := 2 })]
    dict := [(dkey 0x3200 1, 2), (dkey 0x3200 2, 1), (dkey 0x3200 3, 0), (dkey 0x3200 4, 0), (dkey 0x3200 5, 1), (dkey 0x3200 6, 0)] }
theorem wit_HankPowerStacksAndGranules :
    (hanked {}).hankHeldOn 3 = false ∧ ((hanked { pend := some ⟨2, 5, true, false⟩ }).hank 3).pendBit = true ∧
    ({ live stOpen with store := (262144 - 4096, rset prick0 4 3 1 1) :: (live stOpen).store } : State).hankHeldOn 3 = true ∧
    ((hanked { power := .moving 2 1 }).hank 3).power = .moving 2 1 ∧ ((hanked { power := .moving 2 1 }).hank 3).reqNext = none ∧
    ((hanked { power := .moving 2 0, scrubbing := true }).hank 3).scrubbing = true ∧ 16 ≤ (({} : Hank).owner).toNat ∧
    powerCode ((hanked {}).hank 3).power = 0 ∧ powerCode ((hanked { power := .moving 0 2 }).hank 3).power = 3 ∧
    ((hanked { power := .moving 0 2 }).hank 3).reqNext = none ∧ (86#8).toInt ≥ 85 ∧ (80#8).toInt ≤ 80 ∧
    recorded.serves .pf = true ∧ recorded.dget 0x3200 7 ≠ 1 ∧ recorded.partOf (recorded.dget 0x3200 2) = some (recorded.dget 0x3200 1) ∧
    (octets (recorded.recMask 0)).all reservable = true ∧ octets (recorded.recMask 0) = [0] ∧ recorded.recPcs 0 = [0] ∧ recorded.pcOut 0 = false ∧
    recorded.recOverlap 0 = false ∧ (hanked {}).enabledRecs = [] ∧ (hanked {}).granZeroing 1534 = false ∧ (hanked {}).granOwner 1534 = 31 ∧
    ({ hanked {} with granOwn := [(4, 0x20)] } : State).granZeroing 4 = true := by decide +kernel

/-- A beat of another master holds the context store. -/
def locked : State := { State.reset with locks := [(0, { held := some ⟨.distaff 1, 1, 3, 0⟩ })] }
/-- A sequence of distaff core 0 was broken there, with two beats to come. -/
def brokenOff : State := { State.reset with locks := [(0, { ended := some 0, broken := [(.distaff 0, 2)] })] }
theorem wit_ControlMatrixServesMasters :
    (locked.lockState .contextStore).held = some ⟨.distaff 1, 1, 3, 0⟩ ∧ locked.lockHolder .contextStore = some ⟨.distaff 1, 1, 3, 0⟩ ∧
    (brokenOff.lockState .contextStore).held = none ∧ (brokenOff.lockState .contextStore).broken.head? = some (.distaff 0, 2) ∧
    (State.reset.lockState .contextStore).held = none ∧ (State.reset.lockState .contextStore).broken = [] ∧
    State.reset.matrixNow 0x0017FFFFFFC0 64 = true ∧ State.reset.matrixNow 0 1 = true ∧
    ({ asking3 { src := .core, ctx := some 0, block := 0, write := false } with clock := { State.reset.clock with arrivals := 1 } } : State).matrixNow 0 8 = false ∧
    (.distaff 1 : Master) ≠ .distaff 0 ∧ ((locked.lockState .contextStore).held.map fun l => l.start + 128) = some 128 ∧ State.reset.lockFree .contextStore = true ∧
    State.reset.inReset = false ∧ State.reset.pcRetired 0x0017FFFFFFFF = false ∧ 0x0017FFFFFFC0 + 64 ≤ 0x001800000000 ∧
    State.reset.hbmServes 0 3 = false ∧ State.reset.node ≠ .fault ∧ State.reset.rst.perstLow = false ∧ 0xE0 % 0x40 = 0x20 := by decide +kernel

/-! ## Partitions -/

/-- The site's partition in this mode and phase on its way to a target, without streams. -/
def moving0 (f : Part → Part) : State := { site with parts := [(0, f { spin0 := 1, mode := 1, ctxq := 10 })], mgmt := { site.mgmt with addr := 1 } }
/-- A card of 10 µs with one entry. -/
def card0 : List Byte := bytesOfNat 4 10000 ++ bytesOfNat 2 1 ++ List.replicate 10 0 ++ bytesOfNat 4 1000 ++ bytesOfNat 4 8000 ++ bytesOfNat 8 0
theorem wit_PartitionsModesAndCards :
    let s := moving0 id
    let t := moving0 fun x => { x with target := 2, pend := true, phase := 1 }
    let u := moving0 fun x => { x with target := 6, pend := true, phase := 3 }
    let d := moving0 fun x => { x with mode := 0 }
    s.serves .pf = true ∧ s.serves (.vf 0) = true ∧ s.node = .operational ∧ (s.part 0).phase.toNat < 2 ∧ (s.part 0).forced = false ∧
    (t.part 0).since = 0 ∧ ({ t with time := { t.time with tb := 2000000 } } : State).now = 2000000 ∧
    ({ t with time := { t.time with tb := 2000000 } } : State).atFrameBoundary = true ∧
    ({ t with time := { t.time with tb := 2000001 } } : State).atFrameBoundary = false ∧ (t.part 0).resetting = false ∧ (t.part 0).resetWork = false ∧
    s.modeTest 0 1 2 = 0 ∧ s.modeTest 0 1 5 ≠ 0 ∧ s.dict.all (fun e => decide (e.1 % 256 ≠ 3)) = true ∧
    (t.part 0).pend = true ∧ (t.part 0).phase = 1 ∧ t.streamsAllow 0 = true ∧ stagesOf 1 2 = [] ∧
    (2 ≤ (u.part 0).phase.toNat ∧ u.stageDone 0 = true ∧ ((stagesOf 1 6).dropWhile fun q => q ≠ 3).drop 1 = []) ∧
    ((live stOpen).part 0).mode = 1 ∧ ({ live stOpen with parts := t.parts } : State).streamsAllow 0 = false ∧
    (d.part 0).mode = 0 ∧ (d.part 0).pend = false ∧ d.partClash 0 10 0xFFFFFFFF = false ∧ d.partRange 0 6 5 = true ∧ d.partClash 0 6 5 = false ∧
    d.partClash 0 7 458752 = false ∧ d.partClash 0 4 0xFFFFFFFFFFFFFFFF = false := by decide +kernel
theorem wit_PartitionsModesAndCards_card :
    let d := moving0 fun x => { x with mode := 0 }
    let c : Card := ⟨10000, [⟨1000, 8000, 0⟩]⟩
    parseCard card0 = .inr (some c) ∧ card0.length ≤ 4112 ∧ d.cardTest 0 (some c) = 0 ∧ d.partOf 0 = some 0 ∧ (moving0 id).cardTest 0 (some c) = 7 ∧
    ({ d with cards := [(0, { waiting := some c, at_ := 0 })] } : State).card 0 = { waiting := some c, at_ := 0 } ∧
    (let x := { skein with ctx := 7, bound := true }
     let s := { live stOpen with disps := [(0, { ready := [x] })], streams := [(7, { cardEntry := some (0, 0) })], time := { State.reset.time with tb := 2000 } }
     (s.disp 0).ready.any (s.startDue 0) = true) ∧
    (d.part 0).replay ≠ 1 ∧ ctxState (d.entry 7) ≠ stBackground ∧ ctxState ((live stBackground).entry 7) = stBackground ∧
    (live stBackground).dget 0x3000 0x12 = 0 := by decide +kernel

/-! ## Egress, time, interrupts -/

/-- A frame of 60 bytes launched at 10000, committed at c, which must end by e. -/
def tx (c e : Nat) : TxFrame := { ctx := none, seq := 0, rel := 0, status := 0, bytes := frame60, at_ := 10000, limit := e, commit := c }
/-- It is on port 0 at its launch time. -/
def sending (f : Egress) : State := { site with egress := [(0, f)], time := { State.reset.time with tb := 10000 } }
/-- Queue 6 holds one egress item, 60 bytes at the start of HBM, for port 0. -/
def queuedFrame : State :=
  let i : QItem := { len := 16, payload := BitVec.ofNat 448 (60 * 2 ^ 48) }
  (sending {}).setQueue 6 { queue5 with flush := true, egress := some 0, items := [i] }
theorem wit_FramesStartOnTheWire :
    let s := sending { timed := [tx 8500 20000] }
    s.portSends 0 = true ∧ (s.port 0).timed = [tx 8500 20000] ∧ (tx 8500 20000).at_ ≤ s.now ∧ s.endsLate 0 (tx 8500 20000) = false ∧
    (tx 8500 20000).commit + 1500 ≤ (tx 8500 20000).at_ ∧ s.endsLate 0 (tx 8500 10000) = true ∧ (tx 8501 20000).at_ < (tx 8501 20000).commit + 1500 ∧
    (s.dset 0x2110 2 1).dget 0x2110 2 = 1 ∧ (sending { gov := [tx 0 0] }).wireFree 0 10000 60 = true ∧ (sending { busy := 10001 }).wireFree 0 10000 60 = false ∧
    queuedFrame.egressTurn 0 = some 6 ∧ egressItem ((queuedFrame.queue 6).items.headD { len := 0, payload := 0 }) = some (0, 60) ∧
    (queuedFrame.queue 6).heldN = 0 ∧ queuedFrame.untimedReads 0 0 60 = true ∧ queuedFrame.wireFree 0 queuedFrame.now 60 = true ∧
    (sending { late := [tx 0 0] }).egressTurn 0 = none ∧
    (s.port 0).first = some (tx 8500 20000) ∧ (tx 8500 20000).src = none ∧
    ((sending { timed := [{ tx 8400 20000 with at_ := 11000 }, tx 8500 20000] }).port 0).first = some (tx 8500 20000) ∧
    (sending { late := [tx 0 0] }).firstLate 0 = some (tx 0 0) ∧ (sending { late := [tx 0 0] }).wireFree 0 10000 60 = true ∧
    (sending { late := [{ tx 0 0 with at_ := 10001 }] }).firstLate 0 = none ∧ queuedFrame.firstLate 0 = none ∧
    queuedFrame.untimedWaits 0 60 = false ∧
    ({ asking3 { src := .core, ctx := some 0, block := 0, write := false } with clock := { State.reset.clock with arrivals := 1 } } : State).untimedWaits 0 60 = true := by
  decide +kernel
/-- A timed frame of an item of queue 6 that is read from scratch. -/
theorem wit_FramesStartOnTheWire_read :
    let r : TxSrc := { queue := 6, cell := 3, addr := 0x010000000000 }
    let f : TxFrame := { tx 8500 20000 with src := some r }
    let s := sending { timed := [f] }
    s.portSends 0 = true ∧ (s.port 0).first = some f ∧ f.src = some r ∧ f.at_ ≤ s.now ∧ s.endsLate 0 f = false ∧ f.commit + 1500 ≤ f.at_ ∧
    s.regionHolds 6 = false ∧ (s.queue 6).state = .active := by decide +kernel

/-- Channel 3 of partition 0's timer block, with the start instant 20000. -/
def timed (c : Timer) (at_ : DWord) : State := { site with timers := [(0, { ch := [(3, c)], at_ := at_ })], time := { State.reset.time with tb := 10000, setLo := 30000 } }
theorem wit_TimebaseAndTimers :
    (204800000#32).toInt ≤ 204800000 ∧ -204800000 ≤ (BitVec.ofInt 32 (-204800000)).toInt ∧ 204800000 < (204800001#32).toInt ∧
    State.reset.time.slew = 0 ∧ State.reset.time.inen = false ∧
    (let s := timed { wait := true } 20000
     let b := s.tblock 0
     b.waiting ≠ 0 ∧ s.now < b.at_.toNat ∧ b.at_.toNat < (s.time.setHi ++ s.time.setLo).toNat ∧ (b.chan 3).wait = true) ∧
    ((timed { wait := true } 10000).tblock 0).at_.toNat ≤ (timed {} 0).now ∧ ((timed { wait := true } 10000).tblock 0).waiting ≠ 0 ∧
    (let c := ((timed { en := true, cnt := 5, cmp := 6, imatch := true } 0).tblock 0).chan 3
     c.due 1 = true ∧ c.due 0 = false ∧ c.held ≠ some 1 ∧ c.chain = false ∧ c.cnt + 1 = c.cmp) ∧
    (((timed {} 0).tblock 0).chan 4).chain = false ∧ ({ timed {} 0 with clock := { State.reset.clock with cycles := 1 } } : State).clock.cycles = 1 ∧
    (let c : Timer := { en := true }; c.due 1 = true ∧ c.next = 1 ∧ c.due 2 = true ∧ c.next < 2 ∧ c.held = none ∧
      ({ c with held := some 1 } : Timer).due 2 = true ∧ ({ c with held := some 1 } : Timer).next ≤ 1) ∧
    State.reset.mayStep = true ∧ (live stOpen).mayStep = false ∧ ((timed { wait := true } 10000).tblock 0).at_.toNat = (timed {} 0).now ∧
    (timed { wait := true } 10001).now < ((timed { wait := true } 10001).tblock 0).at_.toNat ∧
    (timed {} 0).partOf ((timed {} 0).tblock 0 |>.chan 3).route.toNat = some 0 ∧ (timed {} 0).oos 0 = false ∧
    ((timed {} 0).pos ((timed {} 0).posOf 0)).st ≠ 2 ∧ (65536#32).getLsbD 16 = true := by decide +kernel
theorem wit_TimebaseAndTimers_pps :
    let s : State := { State.reset with time := { State.reset.time with inen := true, outen := true, off := 5, tb := 1000000005 } }
    let t : State := { State.reset with time := { State.reset.time with ppsOut := true, off := 5, width := 3, tb := 8 } }
    s.time.inen = true ∧ true ≠ s.time.ppsIn ∧ s.time.inpol = false ∧ s.time.lastEdge = none ∧
    s.time.outen = true ∧ s.now % 1000000000 = s.time.off ∧ t.time.ppsOut = true ∧ t.time.riseAt + t.time.width ≤ 3 := by decide +kernel
/-- A step was given in this TIME cycle, with the start instant 20000 between TB and the step value. -/
theorem wit_TimebaseAndTimers_step :
    let s : State := timed { wait := true } 20000
    let t : State := { s with time := { s.time with stepping := true } }
    t.time.stepping = true ∧ t.pending = [] ∧ t.rst.pwrLow = false ∧ t.rst.held = false ∧
    t.timers.all (fun e => e.2.ch.all fun y => !y.2.fell) = true ∧ (t.tblock 0).waiting ≠ 0 ∧ t.now < (t.tblock 0).at_.toNat ∧
    (t.tblock 0).at_.toNat < (t.time.setHi ++ t.time.setLo).toNat ∧ ((t.tblock 0).chan 3).wait = true ∧
    ((timed {} 0).tblock 0).at_.toNat ≤ t.now ∧ ((timed {} 0).tblock 0).at_ ≠ t.time.setHi ++ t.time.setLo := by decide +kernel

/-- Level 1 source 2 of spindle 0 and level 2 source 40 of distaff core 1 are pending and enabled. -/
def pended (run : RunState) : State :=
  let s := spinWith fun u => { u with vbase := 0x8000000000000001, st := u.st ||| 4 }
  let s := { s.modCore 0 (fun c => { c with run := run }) with l1s := [(0, { pend := 4, en := 4 })] }
  let s := s.modCore 129 fun c => { c with cpu := { c.cpu with vbase := 0x8000000000000001, st := c.cpu.st ||| 4, sgb := [(0, 0x8000000000000000)], sgl := [(0, 0x000700000001FFFF)] } }
  let s := s.modCore 0 fun c => { c with cpu := { c.cpu with sgb := [(0, 0x8000000000000000)], sgl := [(0, 0x000700000001FFFF)] } }
  { s with l2 := { s.l2 with src := [(40, BitVec.ofNat 7 (3 + 1 * 16 + 64))], pend := [(40, true)] } }
theorem wit_InterruptsReachTheirTargets :
    let s := pended .executing
    let i := pended .idle
    s.l1Pick 0 = some 2 ∧ s.atBoundary 0 = true ∧ (s.fetchFault 0 (intVector (s.cpu 0).vbase 2)).isSome = false ∧ (s.core 0).run = .executing ∧
    (s.cpu 0).ie = true ∧ (s.cpu 0).inServ = none ∧ i.l1Pick 0 = some 2 ∧ (i.core 0).run = .idle ∧ i.atBoundary 0 = true ∧
    s.l2Select 1 = some 40 ∧ s.l2Select 0 = none ∧ s.atBoundary 129 = true ∧ (s.core 129).run = .executing ∧ (s.cpu 129).ie = true ∧
    (s.cpu 129).vbase.getLsbD 0 = true ∧ i.dispatchDue 0 = false ∧ s.l2Held 1 = none ∧ s.l2Pick 1 = some 40 ∧ s.l2Pick 0 = none ∧ (s.fetchFault 129 (intVector (s.cpu 129).vbase 0)).isSome = false := by decide +kernel
theorem wit_InterruptsReachTheirTargets_rest :
    let s : State := { State.reset with msix := [(5, { pend := true })], msixFns := [(0, { enable := true })] }
    (s.pos 0).st ≠ 2 ∧ ((s.setPos 0 { st := 2 }).pos 0).st = 2 ∧ (s.l1 0).evt = [] ∧ ((s.setL1 0 { evt := [(7, 1)] }).l1 0).evt = [(7, 1)] ∧
    5 < msixSize (fnKey (.vf 0)) ∧ (s.msixEnt 0 5).pend = true ∧ (tabGet ({} : MsixFn) s.msixFns 0).enable = true ∧
    (tabGet ({} : MsixFn) s.msixFns 0).fmask = false ∧ (s.msixEnt 0 6).pend = false ∧
    tabGet 0 s.l2.remain 3 ≤ 1 ∧ tabGet 0 (s.l1 0).remain 4 ≤ s.coreCycles ∧ s.coreCycles = 1 ∧
    tabGet 0 ((s.setL1 0 { remain := [(4, 1)] }).l1 0).remain 4 ≤ (s.setL1 0 { remain := [(4, 1)] }).coreCycles ∧
    (s.setL1 0 { remain := [(4, 2)] }).coreCycles < tabGet 0 ((s.setL1 0 { remain := [(4, 2)] }).l1 0).remain 4 ∧
    tabGet 0 ({ s.l2 with remain := [(3, 1)] } : L2).remain 3 ≤ 1 ∧ 1 < tabGet 0 ({ s.l2 with remain := [(3, 2)] } : L2).remain 3 := by
  decide +kernel

/-! ## Shuttles -/

/-- A descriptor that moves 64 bytes from HBM address 0x1000 to 0x2000 and ends its list. -/
def move64 (w2 : Nat) : List Byte := bytesOfNat 8 0x1000 ++ bytesOfNat 8 0x2000 ++ bytesOfNat 8 w2 ++ bytesOfNat 8 0
/-- Channel 0 of hoop 0 runs the list at HBM address 0; its partition uses Throughput service. -/
def shuttling (x : Shuttle) (w2 : Nat) : State :=
  ({ live stOpen with shuttles := [(0, x)], parts := [(0, { spin0 := 1, mode := 3 })] } : State).poke 0 (move64 w2)
theorem wit_ShuttleChannelsRunLists :
    let l : ShList := ⟨none, 0, none, 0, 0, 0, false⟩
    let s := shuttling { st := .running, cur := some l } (64 + 2 ^ 33)
    let t := shuttling { st := .idle, ready := [l] } 0
    s.shCtxOk 0 7 = true ∧ s.shCtxOk 0 8 = false ∧ (s.shuttle 0).room false = true ∧ (s.shuttle 0).room true = true ∧
    (t.shuttle 0).st = .idle ∧ (t.shuttle 0).best = some l ∧ t.node ≠ .fault ∧ (s.shuttle 0).st = .running ∧ (s.shuttle 0).doneb = 0 ∧
    ((s.shFetch 0 0).map fun d => (d.src, d.dst, d.len, d.last, d.malformed)) = some (0x1000, 0x2000, 64, true, false) ∧
    s.shReach 0 0x1020 = .ok ∧ s.shReach 0 0x2000 = .ok ∧ ((t.shFetch 0 0).map fun d => d.malformed) = some true ∧
    ({ s with parts := [] } : State).shFetch 0 0 = none ∧
    (let u := shuttling { st := .halted, cause := 3, cur := some l } (64 + 2 ^ 33)
     (u.shuttle 0).cur.isSome = true ∧ (u.shFetch 0 (u.shuttle 0).desc).isSome = true ∧ u.shReach 0 (u.shuttle 0).desc = .ok) ∧
    s.shYields 0 (s.shuttle 0) = false := by decide +kernel

/-! ## Adaptation and positions -/

/-- A device with an address in OPERATIONAL and no streams. -/
def addressed (n : Node) : State := { State.reset with node := n, mgmt := { State.reset.mgmt with addr := 1 } }
theorem wit_AdaptationAndPositions :
    let s := { addressed .operational with clock := { State.reset.clock with nextStep := some (1, 0) } }
    let t := (addressed .operational).dset 0x2010 8 1
    let u := { s with time := { s.time with tb := 1000000 } }
    let w := (({ u with clock := { u.clock with nextStep := none, step := 2 } } : State).dset 0x2010 1 1).dset 0x2010 12 50
    s.node ≠ .fault ∧ 3 ≤ s.distaffRunning ∧ s.clock.nextStep = some (1, 0) ∧ u.atFrameBoundary = true ∧ 0 < u.now ∧
    w.atFrameBoundary = true ∧ w.clock.nextStep = none ∧ w.dget 0x2010 1 = 1 ∧ w.stepForbidden 2 = false ∧ w.stepForbidden 1 = false ∧
    w.hottest ≤ (sextNat 16 (w.dget 0x2010 12) - 5) * 8 ∧ 1 < w.clock.step.toNat ∧ w.fasterOk 1 = true ∧ ({ u with time := { u.time with tb := 1000001 } } : State).atFrameBoundary = false ∧ (s.dset 0x2010 1 0).dget 0x2010 1 = 0 ∧
    s.stepForbidden 1 = false ∧ s.serves .pf = true ∧ bitOf 0x0E s.clock.step.toNat = false ∧
    t.spareOf 0 = some 8 ∧ t.dget 0x2010 8 ≠ 0 ∧ t.oos 0 = false ∧ (t.disp 0).running = none ∧ (t.disp 0).drain = false ∧ (t.disp 0).replaced = false ∧
    (t.pos (t.posOf 0)).st ≠ 2 ∧ (t.dset 0x6000 1 1).replaceDue 0 = true ∧ (t.core 0).run ≠ .halted ∧ Memory.wf t.mem = true := by decide +kernel
theorem wit_AdaptationAndPositions_positions :
    let s := addressed .operational
    let t : State := { s with rst := { s.rst with spare := [(0, some { old := 0, new := 8, start := 0 })] } }
    tabGet none t.rst.spare 0 = some { old := 0, new := 8, start := 0 } ∧ 8 / 9 = 0 / 8 ∧ s.posWritable 8 = true ∧ (s.pos 8).st = 0 ∧ s.logOf 8 = none ∧
    ((s.setPos 8 { st := 2, off := true }).pos 8).st = 2 ∧ (s.setPos 8 { st := 2, off := true }).posWritable 8 = true ∧
    (live stOpen).posWritable 0 = false ∧
    (let u := (s.dset 0x2010 8 0).modCore 0 fun c => { c with run := .halted }
     (u.core 0).run = .halted ∧ u.oos 0 = false ∧ u.distaffRunning ≠ 0 ∧ (u.pos (u.posOf 0)).st = 0 ∧ (u.disp 0).running = none ∧
     u.dget 0x2010 8 ≠ 1 ∧ u.liveCtxs = [] ∧ u.spareFor 0 = none ∧
       (let y := (addressed .operational).dset 0x2010 8 1 |>.modCore 0 fun c => { c with run := .halted }; y.spareFor 0 = some 8 ∧ (y.core 0).run = .halted)) := by
  decide +kernel
/-- A position whose reset or power-on ends with this TIME cycle, and a spindle out of service whose position failed its test. -/
theorem wit_AdaptationAndPositions_due :
    let s := addressed .operational
    let p (x : Pos) : State := s.setPos 5 x
    (((p { st := 1, due := some 1 }).pos 5).due = some 1 ∧ ((p { st := 1, due := some 1 }).pos 5).test = false ∧ 1 ≤ s.clock.cycles + 1) ∧
    (((p { st := 1, due := some 0, test := true }).pos 5).test = true ∧ ((p { st := 1, due := some 0, test := true }).pos 5).st ≠ 3) ∧
    s.pending = [] ∧ s.rst.pwrLow = false ∧ s.rst.held = false ∧
    (let t := (s.dset 0x2010 8 1).setPos 0 { st := 2, off := true }
     let u : State := { t with rst := { t.rst with oos := [(0, true)], posFail := [(0, true)] } }
     u.oos 0 = true ∧ u.spareFor 0 = some 8 ∧ u.posFailed (u.posOf 0) = true) := by decide +kernel

/-! ## The host side -/

theorem wit_HostFunctionsRingsAndLinks :
    let s := (((addressed .operational).dset 0x2200 7 1).dset 0x3000 8 2).dset 0x3000 9 4
    let t : State := { s with hdms := [(0, { base := 2, count := 4, committed := true })], granOwn := [(2, 0)] }
    s.cxlMode = true ∧ s.dget 0x3000 8 ≤ 2 ∧ 2 + 4 ≤ s.dget 0x3000 8 + s.dget 0x3000 9 ∧ t.hdmOf (2 * 2 ^ 26) = some 0 ∧
    t.hbmServes (2 * 2 ^ 26) 0 = true ∧ t.hbmServes (3 * 2 ^ 26) 0 = false ∧ t.hdmOf (3 * 2 ^ 26) = some 0 ∧
    (4#8).toNat ≤ s.dget 0x2200 1 ∧ 1 ≤ s.dget 0x2200 2 ∧ (s.portRate 0).isSome = true ∧ t.matrixNow (2 * 2 ^ 26) 64 = true ∧ (s.ring 0 0).en = false ∧ (site.ring 0 0).en = true ∧
    (1 + 2 ^ 17 - (site.ring 0 0).ci) % 2 ^ 17 ≤ (site.ring 0 0).size ∧ (site.ring 0 0).size < (65 + 2 ^ 17 - (site.ring 0 0).ci) % 2 ^ 17 ∧
    site.partOf 0 = some 0 ∧ site.oos 0 = false ∧ (site.pos (site.posOf 0)).st ≠ 2 ∧ site.partOf 1 ≠ some 0 ∧
    site.hostUp = true ∧ s.hostUp = true ∧ (addressed .fault).hostUp = false ∧ s.rst.perstLow = false ∧ s.node ≠ .init ∧ s.node ≠ .fault ∧
    (s.dget 0x2200 3 = 1 → (5#8).toNat ≤ 5) ∧ fld (0x106#64).toNat 0 5 = 6 ∧ (0x106#64).getLsbD 8 = true ∧
    fld (0x105#64).toNat 0 5 < 6 ∧ 16 < fld (0x111#64).toNat 0 5 ∧ s.rst.standby = false := by decide +kernel

/-- A submission entry with this op and bytes 4 to 15. -/
def csq (op q b6 b7 w : Nat) : Rec64 := BitVec.ofNat 512 (op + q * 2 ^ 32 + b6 * 2 ^ 48 + b7 * 2 ^ 56 + w * 2 ^ 64)
theorem wit_SubmissionRingCommands :
    site.csqReady 0 = true ∧
    [csq 1 9 1 4 20, csq 2 5 0 0 0, csq 3 5 63 1 0, csq 4 5 0 15 1, csq 5 5 119 0 0, csq 6 6 0 1 0, csq 7 1 0 0 4096, csq 8 0 0 0 4096, csq 9 0 0 0 0,
      csq 10 0 0 0 4].all (fun e => !site.csqHeld 0 e) = true ∧ (cmdClean (csq 1 9 1 4 20) (cmdBytes 1) = true ∧ (site.queue 9).state = .free ∧
      site.regionClim 0 + site.regionPark 0 + 20 ≤ (site.region 0).quota) ∧
    (cmdClean (csq 2 5 0 0 0) (cmdBytes 2) = true ∧ (site.queue 5).state = .active ∧ (site.queue 5).owner = 0 ∧ (site.queue 5).items = [] ∧
      site.stagedFor 5 = false) ∧
    (cmdClean (csq 3 5 63 1 0) (cmdBytes 3) = true ∧ site.othersIn 0 = []) ∧
    (cmdClean (csq 4 5 0 15 1) (cmdBytes 4) = true ∧ site.ownSpindle 0 0 = true) ∧
    (cmdClean (csq 5 5 119 0 0) (cmdBytes 5) = true ∧ recByte (csq 5 5 119 0 0) 6 2 = 119) ∧
    (let s := site.setQueue 6 { queue5 with flush := true }
     cmdClean (csq 6 6 0 1 0) (cmdBytes 6) = true ∧ (s.portRate 0).isSome = true ∧ bitOf (s.part 0).egr.toNat 0 = true ∧ (s.queue 6).flush = true ∧
       s.testing 4 0 = false) ∧
    (cmdClean (csq 7 1 0 0 4096) (cmdBytes 7) = true ∧ cmdClean (csq 8 0 0 0 4096) (cmdBytes 8) = true) ∧
    (cmdClean (csq 9 0 0 0 0) (cmdBytes 9) = true ∧ tabGet none ruled.qe.rules 0 = some rule0 ∧ rule0.part = 0) ∧
    (cmdClean (csq 10 0 0 0 4) (cmdBytes 10) = true ∧ site.oos 0 = false) := by decide +kernel

/-- The image of a rule for ether type 0x1234 of port 0: queue 5, a ring of four slots of 256 bytes. -/
def image0 : Rec64 := BitVec.ofNat 512 (0xFE * 2 ^ 8 + 0x1234 * 2 ^ 16 + 5 * 2 ^ 64 + 8 * 2 ^ 80 + 4 * 2 ^ 96)
theorem wit_SubmissionRingCommands_images :
    let s : State := { site with hostReads := [⟨0, 7, 3, 1, 4096⟩], qe := { site.qe with queues := [(5, { queue5 with prod := 0 })] } }
    s.node ≠ .fault ∧ prPart prick0 = 0 ∧ prValid (s.prick 1) = false ∧ 1 < s.prickCount ∧ s.liveCtxs = [] ∧
    prickingBad (rset prick0 5 0 8 1) = false ∧ prPart (rset prick0 5 0 8 1) = 0 ∧
    ((ruleOf 0 (BitVec.ofNat 512 (fld image0.toNat 0 256))).map fun r => (r.kind, r.etype, r.queue, s.ruleShape r, s.ruleRing r)) =
      some (0xFE, 0x1234, 5, true, true) ∧ s.ruleList = [] := by decide +kernel

/-! ## The object dictionary -/

theorem wit_MailboxesAnswerInOrder :
    let s := addressed .operational
    ((({ s with mailboxes := [(16, { busy := true })] } : State).mailbox .pf).busy = true ∧ s.serves .pf = true ∧ s.serves (.vf 3) = true) ∧
    dictTop 0x7777 = 0 ∧ (0 < dictTop 0x2010 ∧ dictTop 0x2010 < 255) ∧
    (dictRow 0x2010 5).isSome = true ∧ ((dictRow 0x2030 2).map fun r => r.acc) = some DAcc.ro ∧ ((dictRow 0x5000 1).map fun r => r.acc) = some DAcc.ro ∧
    ((dictRow 0x6001 3).map fun r => r.acc) = some DAcc.wo ∧ ((dictRow 0x2030 1).map fun r => r.acc) = some DAcc.rwp ∧ s.node ≠ .preop ∧
    natOfBytes [0xF4, 1] = 500 ∧ natOfBytes [0xE3, 3] = 995 ∧ natOfBytes [0xE4, 3] = 996 := by decide +kernel
theorem wit_EntriesThatAct :
    let s := addressed .preop
    let busy := s.dset 0x4800 6 1
    let full := s.setDom 0x4800 2 (bytesOfNat 64 (openReq0 0).toNat)
    s.serves .zmp = true ∧ widePath .zmp = true ∧ busy.dget 0x4800 6 = 1 ∧ s.dget 0x4800 6 = 0 ∧ s.dom 0x4800 2 = [] ∧ full.dom 0x4800 2 ≠ [] ∧
    recByte (BitVec.ofNat 512 (natOfBytes (full.dom 0x4800 2))) 0 1 = 1 ∧
    ((s.setPart 2 { resetting := true }).part 2).resetting = true ∧ s.node = .preop ∧ (s.part 2).resetting = false ∧ (s.part 2).mode = 0 ∧
    (s.part 2).phase = 0 ∧ s.liveCtxs = [] ∧ s.rst.standby = false ∧ (List.range 64).all (fun n => !s.hankHeldOn n) = true ∧ s.rst.testGo = none ∧
    s.testAllowed (s.dget 0x6001 1) (s.dget 0x6001 2) = false ∧ ((s.dset 0x6001 1 1).testAllowed 1 ((s.dset 0x6001 1 1).dget 0x6001 2)) = true ∧
    s.dget 0x1200 5 = 0 ∧ 2048 ≤ (s.dset 0x1200 5 2048).dget 0x1200 5 ∧ natOfBytes (bytesOfNat 4 keySave) = keySave ∧
    natOfBytes (bytesOfNat 4 keyLoad) = keyLoad := by decide +kernel

/-! ## Management -/

theorem wit_ManagementRequestsAnswered :
    let s := addressed .operational
    let t : State := { s with mgmt := { s.mgmt with
      last := [(9, some (5, respTx 9 5 1 0x2010 5 0 []))], blocks := [(9, some ⟨0x2010, 5, 2, [0], 7⟩)], aliveRx := [(18, some 4)], emcy := [⟨0x4001, 1, 0, 0, some 0⟩] } }
    s.zmpAlive = true ∧ s.mgmt.addr ≠ 0 ∧ s.mgmt.addr.toNat = 1 ∧ s.mgmt.rxq.length < 16 ∧ s.mgmt.txq.length < 16 ∧ tabGet none s.mgmt.aliveRx 18 = none ∧
    tabGet none t.mgmt.aliveRx 18 = some 4 ∧ tabGet none s.mgmt.last 9 = none ∧ tabGet none t.mgmt.last 9 = some (5, respTx 9 5 1 0x2010 5 0 []) ∧
    tabGet none t.mgmt.blocks 9 = some ⟨0x2010, 5, 2, [0], 7⟩ ∧ (addressed .fault).zmpAlive = true ∧ natOfBytes [0xF4, 1] = 500 ∧
    (let e : Emcy := ⟨0x4001, 1, 0, 0, some 0⟩; emcyTx e ∉ t.mgmt.txq ∧ e.sent = some 0 ∧
      0 + 1000000 * (t.dset 0x1100 11 5).dget 0x1100 11 ≤ 5000000) ∧
    (0x88F7#16 ≠ 0x88B5 ∧ 1500 < (List.replicate 1501 (0 : Byte)).length) ∧
    s.mgmt.ackDue = none ∧ s.node ≠ .unaddressed ∧ (s.dset 0x1100 11 1).dget 0x1100 11 ≠ 0 ∧ (s.dset 0x1100 11 0).dget 0x1100 11 = 0 ∧
    (s.dset 0x1100 9 1).dget 0x1100 9 ≠ 0 ∧ (s.dset 0x1100 9 0).dget 0x1100 9 = 0 ∧
    (s.dset 0x1110 1 (0x2010 * 256 + 5)).dget 0x1110 1 ≠ 0 ∧ (s.dset 0x1110 1 (0x2010 * 256 + 5)).watched 0 ≠ tabGet [] s.mgmt.seen 0 := by decide +kernel
theorem wit_ManagementRequestsAnswered_due :
    let s := (addressed .operational).dset 0x1100 9 1
    let t : State := { s with mgmt := { s.mgmt with beat := some 0, seenAt := [(0, some 0)], rxq := [(9, 5, 1), (9, 6, 1)] } }
    (∀ o, s.inTurn 9 5 o = true) ∧ s.beatDue = true ∧ s.notifyDue 0 = true ∧ t.beatDue = false ∧
    (t.dset 0x1100 14 1).notifyDue 0 = false ∧ t.inTurn 9 6 1 = false ∧ (0 : Nat) < 7 + 1000000000 :=
  ⟨fun _ => rfl, by decide +kernel⟩
theorem wit_ManagementRequestsAnswered_bad :
    let l := zmpBytes 1 9 5 4 1 0x2010 5 []
    let b := l.take 12 ++ [l.getD 12 0 ^^^ 1] ++ l.drop 13
    16 ≤ b.length ∧ b.length ≤ 1500 ∧ b.headD 0 = 1 ∧ beyond b 10 2 ≤ 1400 ∧ 16 + beyond b 10 2 ≤ b.length ∧
    beyond b (12 + beyond b 10 2) 4 ≠ crcOf 0 (b.take (12 + beyond b 10 2)) := by decide +kernel
theorem wit_NodeStatesAndAssignment :
    let u : State := { State.reset with node := .unaddressed }
    let w : State := { u with mgmt := { u.mgmt with chainRaw := true, plca := true, rxq := [(9, 8, 40)], respDue := [(0, 5, some 7)] }, clock := { u.clock with cycles := 100000 } }
    let v : State := { addressed .preop with mgmt := { (addressed .preop).mgmt with plca := true, ackDue := some (0, none) }, clock := { u.clock with cycles := 99999 } }
    u.zmpAlive = true ∧ (addressed .preop).dget 0x1100 4 = 0 ∧ (addressed .preop).dict = [] ∧ (addressed .preop).rst.standby = false ∧
    (addressed .stopped).node = .stopped ∧ (addressed .operational).liveCtxs = [] ∧ u.serves .pf = true ∧ (addressed .preop).serves .pf = true ∧
    w.zmpAlive = true ∧ w.mgmt.chain 100000 = true ∧ u.mgmt.chain 0 = false ∧ w.mgmt.respDue = (0, 5, some 7) :: [] ∧ w.inTurnOf 40 = true ∧ w.rxSeq 40 = some 8 ∧
    u.inTurnOf 39 = true ∧ (addressed .preop).inTurnOf 39 = true ∧ w.inTurnOf 39 = true ∧
    ({ w with mgmt := { w.mgmt with rxq := [(9, 8, 40), (9, 9, 39)] } } : State).inTurnOf 39 = false ∧ u.inTurnOf 72 = true ∧ true ≠ u.mgmt.chainRaw ∧ 0 + 100000 ≤ w.clock.cycles ∧
    v.mgmt.ackDue = some (0, none) ∧ v.clock.cycles < 0 + 100000 ∧ v.mgmt.plca = true ∧
    (let a : State := { u with mgmt := { u.mgmt with session := some 5, answered := true } };
      a.mgmt.session = some (5#8).toNat ∧ a.mgmt.answered = true ∧ u.mgmt.answered = false ∧ u.mgmt.session ≠ some (5#8).toNat) ∧
    State.reset.inReset = false ∧ u.mgmt.beacon = 0 ∧ 0 + 4000000 ≤ ({ u.clock with cycles := 4000000 } : Clock).cycles ∧
    u.clock.cycles < u.mgmt.beacon + 4000000 := by decide +kernel

/-! ## Power, resets, faults, tests -/

/-- Start-up inputs without a failure. -/
def startInputs : StartupInputs := ⟨none, 0, none, true, 0, 1, 0⟩
theorem wit_ResetsAndStartup :
    State.reset.rst.pwrLow = false ∧ State.reset.rst.resetLow = false ∧ State.reset.rst.perstLow = false ∧ State.reset.node = .init ∧
    State.reset.rst.started = false ∧ State.reset.rst.tripped = false ∧ startInputs.pllFailed = none ∧ startInputs.stackFailed = none ∧
    startInputs.firmwareOk = true ∧ State.reset.mgmt.bankA = [] ∧ State.reset.mgmt.bankB = [] ∧ State.reset.rst.low = 0 ∧
    (let s : State := { State.reset with rst := { State.reset.rst with started := true } }
     s.rst.started = true ∧ s.inReset = false ∧ s.mgmt.addr = 0 ∧ s.dget 0x1100 4 = 0) ∧
    (addressed .init).mgmt.addr ≠ 0 ∧ ({ State.reset.rst with pwrLow := true } : Rst).pwrLow = true := by decide +kernel
theorem wit_SupplyTemperatureAndFatalErrors :
    let s := addressed .operational
    let t : State := { s with rst := { s.rst with warn := 4, holdoff := some 0 } }
    let d : State := { s with clock := { s.clock with cycles := 10000000 } }
    s.inReset = false ∧ s.rst.warn.getLsbD 6 = false ∧ t.rst.warn.getLsbD 2 = true ∧ t.rst.holdoff = some 0 ∧ 0 ≤ t.now ∧ s.rst.tripped = false ∧
    (s.core 129).run ≠ .halted ∧ (s.core 129).run ≠ .off ∧ tabGet 0 d.rst.kicks 1 + 10000000 ≤ d.clock.cycles ∧
    s.clock.cycles < tabGet 0 s.rst.kicks 1 + 10000000 ∧ 1 < s.distaffRunning ∧
    (s.haltCore 129 |>.haltCore 130 |>.haltCore 131).distaffRunning = 1 ∧
    ({ s with rst := { s.rst with resetLow := true } } : State).inReset = true := by decide +kernel
theorem wit_SupplyTemperatureAndFatalErrors_levels :
    tripLevel ≤ 1000 ∧ engageLevel ≤ 900 ∧ 900 < tripLevel ∧ 0 ≤ releaseLevel ∧ 760 < engageLevel ∧ releaseLevel < 850 := by
  unfold tripLevel engageLevel releaseLevel
  cases gradeAE <;> decide
theorem wit_RecordsAndLiveTests :
    let s := addressed .fault
    let o := addressed .operational
    let t (u n : Nat) : State := { o with rst := { o.rst with tests := [(u, n)] } }
    s.node = .fault ∧ s.rst.recorded = false ∧ 0 < s.distaffRunning ∧ o.testing 0 8 = false ∧ (t 0 8).testing 0 8 = true ∧
    (t 1 63).testing 1 63 = true ∧ (t 2 15).testing 2 15 = true ∧ (t 3 127).testing 3 127 = true ∧ (t 5 3).testing 5 3 = true ∧ (t 5 3).rst.round = false ∧
    (o.dset 0x6000 1 1).dget 0x6000 1 ≠ 0 ∧ 3 ≤ o.distaffRunning ∧ o.rst.standby = false ∧ o.testAllowed 1 63 = true ∧ o.spareOf 15 = some 143 ∧
    o.testAllowed 0 143 = true ∧ o.testAllowed 5 0 = true := by decide +kernel

/-! ## States and time -/

theorem wit_StepKeepsCanonicalMemory : Memory.wf State.reset.mem = true ∧ tabWf (fun _ => (0 : Rec64)) State.reset.store = true ∧
    tabWf (fun _ => (0 : BitVec 16)) State.reset.rsv = true ∧ (∃ t, step State.reset = .next t) := ⟨by decide, by decide, by decide, _, rfl⟩
theorem wit_EmptyQueueTicks : State.reset.pending = [] ∧ State.reset.rst.pwrLow = false ∧ State.reset.rst.held = false ∧
    ({ State.reset.rst with held := true } : Rst).held = true ∧ State.reset.rst.tripped = false ∧
    ({ State.reset with rst := { State.reset.rst with tripped := true } } : State).rst.tripped = true ∧ ((running skein id).disp 0).running = some skein ∧
    ((running skein id).disp 0).ending = false ∧ (running skein id).timers = [] ∧ (running skein id).rst.pos = [] ∧ (running skein id).mgmt.rxq = [] ∧
    (running skein id).traceOut = [] ∧ (running skein id).egress = [] ∧ ((State.reset.setL1 0 { remain := [(4, 9)] }).l1s.map Prod.fst).Nodup := by decide

/-! ## Values that the manual prints -/

/-- 10 Table 10-8: the environments FF, NF and ST. -/
def envFF : FEnv := { rm := 0, fzi := true, fzo := true, strap := false }
def envNF : FEnv := { rm := 0, fzi := false, fzo := false, strap := false }
def envST : FEnv := { rm := 0, fzi := true, fzo := true, strap := true }
/-- Result and flags of a function on operands of a format. -/
def fp2 (g : Fmt → FEnv → FIn → FIn → Option FRes) (f : Fmt) (e : FEnv) (x y : Nat) : Option (Nat × Nat) :=
  (g f e (fIn f e x) (fIn f e y)).map fun r => (r.bits, r.flags)
def fp1 (g : Fmt → FEnv → FIn → Option FRes) (f : Fmt) (e : FEnv) (x : Nat) : Option (Nat × Nat) :=
  (g f e (fIn f e x)).map fun r => (r.bits, r.flags)

/-- 10 Tables 10-8 and 10-9: s + s and L + L of F32. -/
theorem test_fadd_edges : fp2 fAdd fF32 envFF 1 1 = some (0, fSUBF) ∧ fp2 fAdd fF32 envNF 1 1 = some (2, 0) ∧ fp2 fAdd fF32 envST 1 1 = none ∧
    fp2 fAdd fF32 envNF 0x7F7FFFFF 0x7F7FFFFF = some (0x7F800000, fOF + fNX) ∧ fp2 fAdd fF32 envNF 0x7F7FFFFF 1 = some (0x7F7FFFFF, fNX) := by
  decide +kernel
/-- s × s, and L × s = P2 in each format. -/
theorem test_fmul_edges : fp2 fMul fF32 envNF 1 1 = some (0, fUF + fNX) ∧ fp2 fMul fF16 envNF 0x7BFF 1 = some (0x1BFF, 0) ∧
    fp2 fMul fBF16 envNF 0x7F7F 1 = some (0x3CFF, 0) ∧ fp2 fMul fF32 envNF 0x7F7FFFFF 1 = some (0x34FFFFFF, 0) ∧
    fp2 fMul fF64 envNF 0x7FEFFFFFFFFFFFFF 1 = some (0x3CCFFFFFFFFFFFFF, 0) := by decide +kernel
/-- FDIV of s ÷ L, L ÷ s and s ÷ s. -/
theorem test_fdiv_edges : fp2 fDiv fF32 envFF 0x7F7FFFFF 1 = some (0x7F800000, fDZ + fSUBF) ∧ fp2 fDiv fF32 envNF 1 0x7F7FFFFF = some (0, fUF + fNX) ∧
    fp2 fDiv fF32 envNF 0x7F7FFFFF 1 = some (0x7F800000, fOF + fNX) ∧ fp2 fDiv fF32 envNF 1 1 = some (0x3F800000, 0) := by decide +kernel
/-- P3 and P4. -/
theorem test_fsqrt_edges : fp1 fSqrt fF32 envNF 1 = some (0x1A3504F3, fNX) ∧ fp1 fSqrt fF64 envNF 1 = some (0x1E60000000000000, 0) ∧
    fp1 fSqrt fF32 envFF 0x7F7FFFFF = some (0x5F7FFFFF, fNX) ∧ fp1 fSqrt fF64 envFF 0x7FEFFFFFFFFFFFFF = some (0x5FEFFFFFFFFFFFFF, fNX) := by
  decide +kernel
/-- 10 Table 10-7, P5, P6 and P7. -/
theorem test_vrcp : fp1 fRcp fF32 envFF 0x41200000 = some (0x3DCC0000, fNX) ∧ fp1 fRcp fF16 envNF 0x7BFF = some (0x0101, fUF + fNX) ∧
    fp1 fRcp fBF16 envNF 0x7F7F = some (0x0020, fUF + fNX) ∧ fp1 fRcp fF32 envNF 0x7F7FFFFF = some (0x00202000, fUF + fNX) := by decide +kernel
theorem test_vrsqrt : fp1 fRsqrt fF32 envFF 0x41200000 = some (0x3EA18000, fNX) ∧ fp1 fRsqrt fF16 envNF 1 = some (0x6BF8, fNX) ∧
    fp1 fRsqrt fBF16 envNF 1 = some (0x60B4, fNX) ∧ fp1 fRsqrt fF32 envNF 1 = some (0x64B48000, fNX) ∧
    fp1 fRsqrt fF16 envNF 0x7BFF = some (0x1C04, fNX) ∧ fp1 fRsqrt fBF16 envNF 0x7F7F = some (0x1F80, fNX) := by decide +kernel
/-- P8 and P9; FCMP.EQ of s and +0. -/
theorem test_conversions : fp1 (fConv · fF32) fF16 envNF 1 = some (0x33800000, 0) ∧ fp1 (fConv · fBF16) fF32 envFF 0x7F7FFFFF = some (0x7F80, fOF + fNX) ∧
    fp1 (fun _ => fToInt 64 true) fF32 envFF 0x7F7FFFFF = some (0x7FFFFFFFFFFFFFFF, fNV) ∧ fp1 (fun _ => fToInt 64 true) fF32 envNF 1 = some (0, fNX) ∧
    fp2 (fun _ e => fCompare e 0) fF32 envFF 1 0 = some (1, fSUBF) ∧ fp2 (fun _ e => fCompare e 0) fF32 envNF 1 0 = some (0, 0) := by decide +kernel

/-- The ASCII digits 1 to 9, and 13 Table 13-5's last column. -/
def digits : List Byte := [0x31, 0x32, 0x33, 0x34, 0x35, 0x36, 0x37, 0x38, 0x39]
theorem test_crc : crcOf 0 digits = 0xE3069283 ∧ crcOf 1 digits = 0xCBF43926 ∧ crcOf 2 digits = 0x29B1 ∧ crcOf 3 digits = 0x21CF02 := by decide +kernel

/-- 02 Table 2-11: profiles A to D and b; 07 Table 7-8, entry 0. -/
theorem test_admission : [(⟨500000, 200000, 128000, 0⟩ : Load), ⟨100000, 50000, 24000, 0⟩, ⟨1000000, 400000, 120000, 0⟩, ⟨250000, 150000, 200000, 0⟩].map (Load.e 0) =
    [80480, 15480, 75480, 125480] ∧ (⟨250000, 150000, 200000, 0⟩ : Load).dv = 149400 ∧
    (State.reset.dset 0x2010 8 1).blocking 0 = 1580 ∧ cyclesNs 0 (90000 + kJob) + 1580 + cyclesNs 0 4 = 58313 := by decide +kernel
/-- 02 R75, 15 R450 and its example: profiles A and B of port 2 do not meet, and do if B's launch moves into A's occupancy. -/
theorem test_egress_pairs : pairOkEgress 250000 14008 500000 180000 31008 250000 = true ∧ pairOkEgress 250000 14008 500000 220000 31008 250000 = false ∧
    wireNs 7976 100 = 640 ∧ wireNs 9000 100 = 722 := by decide +kernel
/-- 06 Table 6-6: Keep mode on a queue of six items: the reads, MARK, REWIND and the releases. -/
theorem test_keep_queue : let l : List QItem := (List.range 6).map fun n => { len := 1, payload := BitVec.ofNat 448 n }
    let q (held : Nat) (mark : Option Nat) (n : Nat) : State := queued.setQueue 5 { queue5 with clim := 8, items := l.drop n, heldN := held, mark := mark }
    let see (s : State) : Nat × Option Nat × Nat := ((s.queue 5).heldN, (s.queue 5).mark, (s.queue 5).items.length)
    see (after (.mark (.distaff 0) 5) (q 2 none 0)) = (2, some 2, 6) ∧ see (after (.rewind (.distaff 0) 5) (q 4 (some 2) 0)) = (2, some 2, 6) ∧
    see (after (.release (.distaff 0) 5 ⟨2, false⟩) (q 2 (some 2) 0)) = (0, some 0, 4) ∧ see (after (.release (.distaff 0) 5 ⟨3, false⟩) (q 3 (some 0) 2)) = (0, none, 1) := by
  decide +kernel
/-- 14 Table 14-4: channel 0 counts down to ZERO at 1 and reloads 249,999 the tick after. -/
theorem test_timer_down : let c : Timer := { en := true, down := true, izero := true, reload := 249999, top := 249999 }
    let t (n : Word) : Timer := ((after (.timerTick 0 3) { timed { c with cnt := n } 0 with clock := { State.reset.clock with cycles := 2 } }).tblock 0).chan 3
    ((t 1).cnt = 0 ∧ (t 1).zero = true) ∧ ((t 0).cnt = 249999 ∧ (t 0).zero = false) ∧ ((t 62500).cnt = 62499 ∧ (t 62500).zero = false) := by
  decide +kernel
/-- 13 Table 13-4 and R398: profile H: a copy of eight cycles and an item of one block to a queue, 423 cycles, 1,058 ns. -/
theorem test_shuttle_time : let terms (d : ShSide) (n : Nat) : ShTerms :=
      let (ls, ns) := shSource .ownHoop n
      let (wd, nd, ld) := shDest d n
      { f := 12, ls := ls, ns := ns, wd := wd, nd := nd, ld := ld, th := 0 }
    (terms .ownHoop 8).cycles = 42 ∧ (terms (.queue false) 1).cycles = 369 ∧ shuttleTime [terms .ownHoop 8, terms (.queue false) 1] = 1058 := by decide
/-- 08 Table 8-8, R278: a product, its wide halves and a quotient, with rd the same as a source. -/
theorem test_multiply : ((after (.mul 0 .mulxSS 2 2 3) (spin [(2, -1), (3, 2)])).g 0 2, (after (.mul 0 .mulxSS 2 2 3) (spin [(2, -1), (3, 2)])).g 0 3) = (-2, -1) ∧
    ((after (.mul 0 .mulxUU 2 2 3) (spin [(2, -1), (3, 2)])).g 0 2, (after (.mul 0 .mulxUU 2 2 3) (spin [(2, -1), (3, 2)])).g 0 3) = (-2, 1) := by decide
theorem test_add_wraps : (after (.addi 0 .addi 1 1 1) (spin [(1, -1)])).g 0 1 = 0 ∧ (after (.addi 0 .addi 0 1 1) (spin [(1, 5)])).g 0 0 = 0 := by decide
/-- 08 R283: SKIP annuls one instruction, whose effect does not happen. -/
theorem test_skip : let s := after (.skipCc 0 (.cmp 0 1 1)) (spin [])
    (s.cpu 0).sk = true ∧ (after (.addi 0 .addi 5 0 7) s).g 0 5 = 0 ∧ ((after (.addi 0 .addi 5 0 7) s).cpu 0).sk = false := by decide
/-- 08 R281: a branch offset counts words from the branch. -/
theorem test_branch : (after (.branch 0 .eq 1 2 3) (spin [])).pc 0 = 0x800000000000000C ∧ (after (.branch 0 .ne 1 2 3) (spin [])).pc 0 = 0x8000000000000004 := by
  decide
/-- 05 R181: a handover changes the owner at its boundary only. -/
theorem test_handover : let s := after (.handover 3 word0) (hanked {})
    (s.hank 3).owner = 31 ∧ (after (.handoverBoundary 3) s |>.hank 3).owner = 2 ∧ (after (.handoverBoundary 3) s |>.hank 3).scrubbing = true := by
  decide +kernel
/-- 17 R497: the first supply warning of rail 2 raises ALERT_N and is logged as 0x4001. -/
theorem test_supply : let s := after (.supplyWarning 2) (addressed .operational)
    s.alertLow = true ∧ (s.rst.log.map fun e => e.2.map fun x => (x.code, x.detail)) = [some (0x4001, 2)] := by decide +kernel
/-- 11 Table 11-2: the fields of a microword. -/
theorem test_microword : microword 0xBC05 = { nano := 0x405, sp := true, seq := .stop, pad := 2 } ∧ (microword 0x1000).seq = .repeat_ := by decide

/-! ## Further clauses -/

/-- One element left of a move or a comparison with a second operand beyond the segment. -/
theorem wit_RepMovesOneElement_second :
    let s := spin [(1, 1), (2, 0x10000), (3, 0x20000)]
    s.issues 0 [1, 2, 3] = true ∧ s.g 0 1 ≠ 0 ∧ (s.begun 0).elemCheck 0 0 (s.g 0 2) 8 true false = none ∧
    (s.begun 0).elemCheck 0 0 (s.g 0 3) 8 false true = some 5 ∧ (s.begun 0).elemCheck 0 0 (s.g 0 3) 8 true false = some 5 ∧
    ((moving 1).begun 0).elemCheck 0 0 ((moving 1).g 0 3) 8 false true = none ∧
    ((moving 1).begun 0).elemCheck 0 0 ((moving 1).g 0 3) 8 true false = none := by decide
/-- A locked move of distaff core 0 from the context store into its data RAM. -/
def lockMove (n : DWord) (f : Cpu → Cpu) : State :=
  State.reset.modCore 128 fun c => { c with cpu := f { c.cpu with
    g := [(1, n), (2, 64), (3, 0x10000)], sgb := [(0, 0x8000000000000000), (1, BitVec.ofNat 64 ctxStoreBase)],
    sgl := [(0, 0x000700000001FFFF), (1, 0x0003FFFFFFFFFFFF)] } }
theorem wit_RepMovesOneElement_lock :
    let s := lockMove 2 id
    let a := (s.cpu 128).segAddr 1 (s.g 128 2)
    s.issues 128 [1, 2, 3] = true ∧ (s.core 128).storeBuf = [] ∧ (s.cpu 128).lockBuf = none ∧
    (s.cpu 128).segFault 1 (s.g 128 2) 16 true false = none ∧ (s.g 128 2).toNat % 64 = 0 ∧ 0 < (s.g 128 1).toInt ∧ (s.g 128 1).toInt ≤ 128 ∧
    (s.begun 128).place 128 a 1 = some (.dev (ctxStoreBase + 64)) ∧ lockTargetOf (ctxStoreBase + 64) = some .contextStore ∧
    lockTargetOf a.toNat = some .contextStore ∧ (s.begun 128).lockFree .contextStore = true ∧
    (State.lockRead 128 (lockBeats 2) a.toNat (s.begun 128)).1.map List.length = some 64 ∧
    ((lockMove 129 id).g 128 1).toInt = 129 ∧ ((lockMove 129 id).cpu 128).segFault 1 64 1 true false = none := by decide +kernel
theorem wit_RepMovesOneElement_locked :
    let s (n : Nat) (pc : DWord) : State := lockMove 2 fun c => { c with lockBuf := some ⟨pc, 64, List.replicate n 7⟩ }
    (s 16 0).pc 128 ≠ 0 ∧ (s 16 0x8000000000000000).pc 128 = 0x8000000000000000 ∧
    (List.replicate 8 (7 : Byte)).length ≤ ((s 8 0).g 128 2 - 64).toNat + 8 ∧ ((s 16 0).g 128 2 - 64).toNat + 8 < (List.replicate 16 (7 : Byte)).length ∧
    (∃ s1, ((s 8 0x8000000000000000).begun 128).elemWrite 128 0 ((s 8 0).g 128 3) 8 0x0707070707070707 = .done () s1) :=
  ⟨by decide, by decide, by decide, by decide, ⟨_, rfl⟩⟩
theorem wit_FloatingPointIssuesResult_ffma :
    let s : State := spinWith fun u => { u with fctl := 0x10, g := [(2, 1)] }
    let env := (s.begun 0).fpEnv 0 false
    s.issues 0 [1, 2, 3, 4] = true ∧ env.strap = true ∧ eFma 0 10 env 0 ((s.g 0 2).toNat % 2 ^ 32) 0 0 = none ∧
    (eFma 0 10 env 0 ((s.g 0 3).toNat % 2 ^ 32) 0 0).isSome = true := by decide +kernel
/-- No patch runs, so no word of one waits. -/
theorem wit_VopStepAndDone_word : adding.uBlocked 0 0 ((adding.seqr 0).slot 0).ops .map = false := by decide

/-- Spindles 0 and 1 belong to the site's partition, in this mode. -/
def placed (m : BitVec 3) : State := { site with parts := [(0, { spin0 := 3, mode := m, ctxq := 10, egr := 1, trUnits := 8 })] }
/-- The request of openReq0 with ANY. -/
def anyReq : Rec64 := openReq0 0 ||| BitVec.ofNat 512 (2 ^ 11)
theorem wit_AcceptedOpenMakesContext_any : (reqOf anyReq).any = true ∧ (reqOf (openReq0 0)).any = false ∧
    ((placed 1).openReq 0 (reqOf anyReq)).1 = 0 ∧ ((placed 3).openReq 0 (reqOf anyReq)).1 = 0 ∧ 0 ∈ (placed 1).inService 0 ∧ 1 ∈ (placed 1).inService 0 ∧
    (match (placed 1).tryCandidate 0 1 (reqOf anyReq) with | .pass _ => true | .fail _ _ _ => false) = true := by decide +kernel
theorem wit_AcceptedOpenMakesContext_card :
    let s : State := { placed 2 with cards := [(0, { card := some (Card.mk 2000000 [CardEntry.mk 1000 900000 0]) })] }
    (s.openReq 0 (reqOf anyReq)).1 = 0 ∧ (s.part 0).mode.toNat = 2 := by decide +kernel
/-- Every pseudo-channel has an octet of spindle 0, and the pricking may be traced. -/
theorem wit_AcceptedOpenMakesContext_traced :
    let s : State := { placed 5 with
      dict := [(dkey 0x3200 1, 0), (dkey 0x3200 2, 0), (dkey 0x3200 3, 0), (dkey 0x3200 4, 127), (dkey 0x3200 5, 1), (dkey 0x3200 6, 0), (dkey 0x3200 7, 1)]
      store := [(262144 - 4096, rset prick0 0 51 1 1)], rsv := (List.range 128).map fun pc => (128 * pc, 0x8000) }
    (s.openReq 0 (reqOf (openReq0 0))).1 = 0 ∧ tabWf (fun _ => (0 : Rec64)) s.store = true ∧ s.prickUnits ≤ 256 := by decide +kernel

/-- Stream 7 has queue 5, to whose window partition 0 pushes, as its input queue. -/
def bound (st : Nat) (e : Rec64) (f : StreamAux → StreamAux) : State :=
  { { live st with store := (7, rset e 0 0 3 st) :: site.store }.setQueue 5 { queue5 with items := [], inb := some 7 } with streams := [(7, f {})] }
theorem bound_mirror (st : Nat) (e : Rec64) (f : StreamAux → StreamAux) : (bound st e f).mirror 16 = 0 := by
  have h : (bound st e f).now = 0 := rfl
  simp [State.mirror, h]
/-- Every kind of arrival at 0 ns, with the windows counted from its phase, and the states of the stream that meets it. -/
theorem wit_PeriodicArrivalsClassified_push :
    let s := bound stOpen openCtx id
    s.reachesQueue (.pcie (.vf 0)) 5 = true ∧ s.regionHolds 5 = false ∧ s.heldDrops 5 = [] ∧ (s.queue 5).state = .active ∧
    (itemOf item1).isSome = true ∧ recCont item1 = false ∧ (s.queue 5).prod.toNat = pushClass (.pcie (.vf 0)) ∧ (s.queue 5).items = [] ∧
    0 < (s.queue 5).clim ∧ (s.queue 5).inb = some 7 ∧ s.node = .operational ∧ ctxSporadic (s.entry 7) = false ∧ ctxPeriod (s.entry 7) = 2000000 ∧
    ctxJitter (s.entry 7) = 0 ∧ ctxRun (s.entry 7) = false ∧ (s.aux 7).held = [] ∧ (s.aux 7).closeAt = none ∧
    (classifyPeriodic 0 0 2000000 0 none).kind = .onTime ∧ (classifyPeriodic 0 1999000 2000000 0 none).kind = .late ∧
    (classifyPeriodic 0 500000 2000000 0 none).kind = .early ∧ (classifyPeriodic 0 0 2000000 0 (some 0)).kind = .excess ∧
    ctxLatePol (s.entry 7) = false ∧ ctxLatePol ((bound stOpen (rset openCtx 0 4 1 1) id).entry 7) = true ∧
    ctxRun ((bound stOpen (rset openCtx 5 62 1 1) id).entry 7) = true ∧
    ctxState ((bound stSuspended openCtx id).entry 7) = stSuspended ∧ ctxState ((bound stDraining openCtx id).entry 7) = stDraining ∧
    ((bound stDraining openCtx fun a => { a with closeAt := some 0 }).aux 7).closeAt = some 0 ∧
    ({ s with node := .preop } : State).node ≠ .operational := by decide +kernel
theorem wit_PeriodicArrivalsClassified_edges :
    classifyPeriodic 9000 10000 2000 100 none = ⟨.late, -1, 9000⟩ ∧ classifyPeriodic 8100 10000 2000 100 none = ⟨.onTime, -1, 8100⟩ ∧
    (classifyPeriodic 9051 10000 2000 100 none).kind = .early ∧ (classifyPeriodic 9050 10000 2000 100 (some (-1))).kind = .excess ∧
    (classifyPeriodic 9051 10000 2000 100 (some 0)).kind = .excess ∧ (classifyPeriodic 11050 0 2000 100 (some 5)).kind = .excess := by decide +kernel

/-- KEND of this skein of stream 7, whose context is e, has completed. -/
def ending (e : Rec64) (x : Skein) : State :=
  let s := { busy fun d => { d with running := some x, ending := true } with store := [(7, e), (262144 - 4096, prick0)] }
  (s.setQueue 6 { s.queue 6 with clim := 4, inb := some 8 }).setPart 0 { s.part 0 with trUnits := 8 }
/-- An egress item of 60 bytes at the start of hank 0. -/
def egress0 : QItem := { len := 16, payload := BitVec.ofNat 448 (0x010000000000 + 60 * 2 ^ 48) }
theorem wit_CommitAppendsOrParks_general :
    let timed := ending (rset openCtx 5 61 1 1) { skein with ctx := 7, staged := [egress0] }
    let traced := (ending openCtx { skein with ctx := 7, traced := true, staged := [egress0] }).dset 0x3000 13 1
    let checked := ending (rset openCtx 0 47 1 1) { skein with ctx := 7, staged := [egress0] }
    let runs (s : State) : Prop := ((s.disp 0).running.isSome = true ∧ (s.disp 0).ending = true ∧ (s.queue 6).state = .active ∧
      ((s.traceFlush 0 true).disp 0).running.isSome = true ∧ (s.traceFlush 0 true).commitWaits 0 = false ∧ (s.queue 6).items.length + 1 ≤ (s.queue 6).clim)
    (runs timed ∧ runs checked) ∧ ctxTimed (timed.entry 7) = true ∧ egressItem egress0 = some (0x010000000000, 60) ∧
    timed.inOwnHank 0 0 0x010000000000 60 = true ∧ ctxChkEn (checked.entry 7) = true ∧ traced.dget 0x3000 13 ≠ 0 ∧ (traced.part 0).trUnits ≠ 0 ∧
    runs traced ∧ ((after (.regionScrub 0) timed).traceFlush 0 true).commitWaits 0 = true ∧ (timed.queue 6).inb = some 8 := by decide +kernel
theorem wit_QueueWindowOperations_timed :
    let s := { live stOpen with store := (7, rset openCtx 5 61 1 1) :: site.store }.setQueue 6 { queue5 with flush := true, outb := some 7 }
    s.timedOut (s.queue 6) = true ∧ s.reachesQueue (.pcie (.vf 0)) 6 = true ∧ s.regionHolds 6 = false ∧ (s.queue 6).state = .active ∧
    queued.timedOut (queued.queue 5) = false := by decide +kernel
theorem wit_HankHandoverAndScrub_test :
    let s : State := { hanked {} with rst := { (hanked {}).rst with tests := [(1, 3)] } }
    s.testing 1 3 = true ∧ (s.hank 3).pendBit = false ∧ (word0.extractLsb' 0 5).toNat < 18 ∧ word0.extractLsb' 0 5 ≠ (s.hank 3).owner ∧
    (hanked {}).testing 1 3 = false := by decide +kernel
theorem wit_ControlMatrixServesMasters_locked :
    let s : State := { State.reset with mcs := [(143, { lock := true })] }
    (s.mc 143).lock = true ∧ s.atM 0 = true ∧ (0x01F000900010#64).toNat = 0x01F000900010 ∧ windowBase + 143 * 0x40000 + 0x2E178 < 2 ^ 48 ∧
    0x2E178 % 8 = 0 := by decide +kernel
theorem wit_FramesStartOnTheWire_sync :
    let f (type : Nat) : TxFrame := { tx 0 0 with bytes := ptpMessage type frame60 }
    isSync (f 0).bytes = true ∧ isSync (f 8).bytes = false ∧ (sending { gov := [f 0] }).portSends 0 = true ∧
    (sending { gov := [f 0] }).wireFree 0 10000 (f 0).bytes.length = true ∧ ((sending {}).dset 0x2140 5 1).dget 0x2140 5 = 1 ∧
    ((sending {}).dset 0x2140 5 0).dget 0x2140 5 ≠ 1 := by decide +kernel
theorem wit_TimebaseAndTimers_threshold :
    let s := (timed {} 0).dset 0x7000 4 1000
    s.dget 0x7000 4 = 1000 ∧ s.time.lag.natAbs = 20000 ∧ State.reset.time.lag.natAbs ≤ State.reset.dget 0x7000 4 ∧
    ({ s with node := .preop } : State).mayStep = true := by decide +kernel
theorem wit_InterruptsReachTheirTargets_drain :
    let s := (pended .executing).setDisp 0 { drain := true }
    (s.disp 0).drain = true ∧ ((pended .executing).disp 0).drain = false ∧ s.l1Pick 0 = some 2 ∧ s.atBoundary 0 = true ∧
    site.hostUp = true ∧ (addressed .fault).hostUp = false := by decide +kernel
theorem wit_ShuttleChannelsRunLists_skip :
    let l : ShList := ⟨none, 0, none, 0, 0, 0, false⟩
    let s (c : BitVec 3) : State := shuttling { st := .halted, cause := c, cur := some l } (64 + 2 ^ 33)
    ((s 3).shuttle 0).st = .halted ∧ (s 3).node ≠ .fault ∧ ((s 3).shuttle 0).cause = 3 ∧ ((s 3).shuttle 0).cur.isSome = true ∧
    ((s 3).shFetch 0 0).isSome = true ∧ (s 3).shReach 0 0 = .ok ∧ ((s 1).shuttle 0).cause ≠ 3 ∧
    ({ s 3 with node := .fault } : State).node = .fault := by decide +kernel
/-- A replacement of spindle 0's position by position 8, begun at u = 0, before and after the mapping has changed. -/
theorem wit_AdaptationAndPositions_move :
    let m : SpareMove := { old := 0, new := 8, start := 0 }
    let s (m : SpareMove) : State := { addressed .operational with
      rst := { State.reset.rst with spare := [(0, some m)] }, clock := { State.reset.clock with u := 1185 } }
    (s m).rst.spare = [(0, some m)] ∧ m.moved = false ∧ m.new / 9 = 0 / 8 ∧ m.start + 1185 ≤ (s m).clock.u ∧ (s m).pending = [] ∧
    (s m).rst.pwrLow = false ∧ (s m).rst.held = false ∧ m.old = (s m).posOf 0 ∧ m.new ≠ m.old ∧ Memory.wf (s m).mem = true ∧
    ((s { m with moved := true }).setMap 0 8).logOf 0 = none ∧ ((s { m with moved := true }).core 0).run ≠ .halted ∧
    (((s { m with moved := true }).modCore 0 fun c => { c with run := .halted }).core 0).run = .halted := by decide +kernel
theorem wit_HostFunctionsRingsAndLinks_lost :
    let s := (addressed .operational).dset 0x2200 7 1
    let t : State := { s with hdms := [(0, { base := 2, count := 4, committed := true })] }
    (tabGet {} t.hdms 0).committed = true ∧ (t.dropHdm 0).hdmOf (2 * 2 ^ 26) = some 0 ∧ (t.dropHdm 0).hbmServes (2 * 2 ^ 26) 0 = false ∧
    (t.dropHdm 0).cxlMode = true ∧ s.rst.tripped = false := by decide +kernel

/-- The values of keys 0x1000.01 and 0x7000.04. -/
def bank0 : Bank := ⟨7, [(0x100001, [1, 2]), (0x700004, [])]⟩
theorem wit_EntriesThatAct_store :
    let s := (addressed .operational).dset 0x1200 5 2048
    let run : StoreRun := { bank := none, ok := true }
    let t : State := { s with mgmt := { s.mgmt with storing := some run } }
    s.mgmt.storing = none ∧ t.mgmt.storing.isSome = true ∧ 2048 ≤ s.dget 0x1200 5 ∧ t.serves .pf = true ∧
    bank0.recs.all (fun e => decide (e.1 < 2 ^ 24 ∧ e.2.length < 2 ^ 16)) = true ∧
    ((addressed .preop).core 128).run ≠ .halted ∧ ((addressed .preop).core 128).run ≠ .off := by decide +kernel
theorem wit_NodeStatesAndAssignment_urgent :
    let s := addressed .preop
    let e : Emcy := ⟨0x4001, 1, 0, 0, none⟩
    let v (q : List ZmpTx) : State := { s with
      mgmt := { s.mgmt with plca := true, ackDue := some (0, none), txq := q }, clock := { s.clock with cycles := 100000 } }
    (v []).mgmt.urgent = 0 ∧ 0 < (v [emcyTx e]).mgmt.urgent ∧ (v []).node ≠ .unaddressed ∧ (v []).mgmt.ackDue = some (0, none) ∧
    0 + 100000 ≤ (v []).clock.cycles ∧ (v []).mgmt.txq.length < 16 ∧ (v []).zmpAlive = true ∧ (v []).mgmt.plca = true := by decide +kernel
theorem wit_ResetsAndStartup_rails :
    let r : Rst := { State.reset.rst with pwrLow := true, low := 4 }
    r.pwrLow = true ∧ r.low.getLsbD 6 = false ∧ r.low.getLsbD 2 = true ∧ r.low.getLsbD 1 = false ∧ r.low.getLsbD 0 = false ∧ r.low ≠ 0 := by decide
theorem wit_SupplyTemperatureAndFatalErrors_rails :
    let s : State := { State.reset with rst := { State.reset.rst with held := true } }
    let t := after (.supplyWarning 5) s
    s.rst.held = true ∧ s.rst.warn.getLsbD 5 = false ∧ t.rst.low.getLsbD 5 = true ∧ t.rst.warn.getLsbD 5 = false ∧ s.rst.low.getLsbD 5 = false ∧
    (let u : State := { s with rst := { s.rst with held := false, resetLow := true } }; u.rst.resetLow = true ∧ u.rst.pwrLow = false) := by decide +kernel
/-- A STORE runs in a quiet device. -/
theorem wit_EmptyQueueTicks_store :
    let s := addressed .operational
    let x : StoreRun := { bank := some (true, bank0), ok := true, answer := some .resp }
    let t : State := { s with mgmt := { s.mgmt with storing := some x } }
    t.pending = [] ∧ t.timers = [] ∧ t.rst.pos = [] ∧ t.rst.spare = [] ∧ t.mgmt.rxq = [] ∧ t.traceOut = [] ∧ t.egress = [] ∧
    t.dget 0x2140 1 = 0 ∧ t.node ≠ .fault ∧ t.mgmt.storing = some x ∧ s.mgmt.storing = none ∧ t.rst.pwrLow = false ∧ t.rst.held = false ∧
    (addressed .fault).node = .fault := by decide +kernel

end Sys2Proof.Tests
end

section
/-! PROOFS. The scope of the contract (00): what the governor's answer to an admission request changes, and R7. -/

namespace Sys2Proof.Machine
open Sys2Proof

/-! ## Reading an entry and answering it (15 R434, R435) -/

/-- A change of the rings' frame, undone on the fields of the frame, gives the state before it. -/
theorem ringsOnly_restore {s t : State} (h : ringsOnly s t) :
    { t with rings := s.rings, sent := s.sent, cxlCache := s.cxlCache, msix := s.msix, l2 := s.l2 } = s := by
  unfold ringsOnly at h
  rw [h]

theorem ringsOnly_redeem (s : State) (p r : Nat) : ringsOnly s (s.redeem p r) := ringsOnly_setRing ..

theorem ringsOnly_ringTake (s : State) (p r : Nat) : ringsOnly s (s.ringTake p r) := rfl

theorem ringsOnly_take_redeem_answer (s : State) (p code tag detail : Nat) :
    ringsOnly s (((s.ringTake p 0).redeem p 1).anqAnswer p code tag detail) :=
  ringsOnly_trans (ringsOnly_ringTake s p 0) (ringsOnly_trans (ringsOnly_redeem _ p 1) (ringsOnly_anqAnswer ..))

/-! ## The open-stream request (02 R76, R436) -/

/-- What an open-stream request can do: it is refused with the state as it was, or accepted on one spindle.
Each of the nine tests before the candidates can only refuse. -/
theorem State.openReq_cases (s : State) (p : Nat) (r : Req) :
    (s.openReq p r).2.2 = s ∨ ∃ k bind, s.openReq p r = (cAccepted, s.accept p k r bind) := by
  unfold State.openReq
  dsimp only
  iterate 9 (split; · exact .inl rfl)
  split
  case h_1 b _ => exact .inr ⟨b.1, b.2.2, rfl⟩
  case h_2 => exact .inl rfl

theorem State.openReq_refused {s : State} {p : Nat} {r : Req} (h : (s.openReq p r).1 ≠ 0) : (s.openReq p r).2.2 = s := by
  obtain same | ⟨k, bind, accepted⟩ := s.openReq_cases p r
  · exact same
  · exact absurd (congrArg Prod.fst accepted) h

theorem State.anyReq_open (s : State) (p : Nat) {e : Rec64} (h : recByte e 0 1 = 1) : s.anyReq p e = s.openReq p (reqOf e) :=
  if_pos h

/-- OPEN on a ready ring performs and answers an entry whose OP is 1. -/
theorem exec_openStream_of_ready {s : State} {p : PartId} {e : Rec64} (ready : s.ringReady p.toNat 0 = true)
    (op : recByte e 0 1 = 1) : exec (.openStream p e) s = .next (s.arqEntry p.toNat e) := by
  change execOpenStream p e s = _
  simp [execOpenStream, ready, op]

/-- A refused open-stream request is no more than the reading of its entry and its answer. -/
theorem State.arqEntry_refusedOpen {s : State} {p : Nat} {e : Rec64} (op : recByte e 0 1 = 1)
    (refused : ((s.ringTake p 0).openReq p (reqOf e)).1 ≠ 0) :
    s.arqEntry p e = ((s.ringTake p 0).redeem p 1).anqAnswer p ((s.ringTake p 0).openReq p (reqOf e)).1 (recByte e 2 2)
      ((s.ringTake p 0).openReq p (reqOf e)).2.1 := by
  unfold State.arqEntry
  dsimp only
  rw [State.anyReq_open _ p op, State.openReq_refused refused]

/-- Settles O27: the fourteen tests of R76 leave the state alone, so a refusal is the ring's traffic alone. -/
theorem refusedOpenChangesNothing : Obligations.RefusedOpenChangesNothing := by
  intro s p entry ready op x refused
  refine ⟨_, exec_openStream_of_ready ready op, State.arqEntry_refusedOpen op refused, ?_⟩
  rw [State.arqEntry_refusedOpen op refused]
  exact ringsOnly_restore (ringsOnly_take_redeem_answer ..)

end Sys2Proof.Machine
end

section
/-! PROOFS. Issue of a vector operation (03): an OPC that Table 3-9 does not list traps at the instruction (R103). -/

namespace Sys2Proof.Machine
open Sys2Proof

/-! ## What an exception keeps, and where its EPC lies (12 R358, R361) -/

theorem cores_of_reportsOnly {s t : State} (h : reportsOnly s t) : t.cores = s.cores := by rw [h]

/-- The interrupt source, the log entry and the emergency of a controller that halts. -/
theorem reportsOnly_haltReport (s : State) (source error code detail : Nat) :
    reportsOnly s (((s.l2Event source).logErr error detail).emergency code detail) :=
  reportsOnly_trans (reportsOnly_trans (reportsOnly_l2Event ..) (reportsOnly_logErr ..)) (reportsOnly_emergency ..)

/-- A halt stops the core; its reports reach no core. -/
theorem State.haltCore_cores (s : State) (k : Nat) :
    (s.haltCore k).cores = (s.modCore k fun c => { c with run := .halted }).cores := by
  unfold State.haltCore
  dsimp only
  split
  case isTrue => exact (cores_of_reportsOnly (reportsOnly_haltReport ..)).trans rfl
  case isFalse =>
    split
    · exact cores_of_reportsOnly (reportsOnly_trans (reportsOnly_haltReport ..) (reportsOnly_fatal ..))
    · exact (cores_of_reportsOnly (reportsOnly_haltReport ..)).trans rfl

@[simp] theorem State.haltCore_cpu (s : State) (k : Nat) : (s.haltCore k).cpu k = s.cpu k := by
  have stopped : (s.haltCore k).core k = (s.modCore k fun c => { c with run := .halted }).core k :=
    congrArg (fun cores => ({ s with cores } : State).core k) (s.haltCore_cores k)
  unfold State.cpu
  rw [stopped, State.core_modCore, if_pos rfl]

@[simp] theorem State.vectorCheck_cpu (s : State) (k : Nat) : (s.vectorCheck k).cpu k = s.cpu k := by
  unfold State.vectorCheck
  split
  · exact s.haltCore_cpu k
  · rfl

/-- Only a Return Fault, code 12, keeps the EPC it finds. -/
theorem State.takeException_epc (s : State) (k code : Nat) (epc eaddr : DWord) (acc : Nat) (imp : Bool) (notReturn : code ≠ 12) :
    ((s.takeException k code epc eaddr acc imp).cpu k).epc = epc := by
  unfold State.takeException
  dsimp only
  rw [State.vectorCheck_cpu]
  unfold State.cpu
  rw [State.core_modCore, if_pos rfl]
  dsimp only
  split <;> exact if_neg (by simpa using notReturn)

theorem trapped_epc {s t : State} {c code : Nat} {eaddr : DWord} (h : trapped c code eaddr s t) (notReturn : code ≠ 12) :
    (t.cpu c).epc = s.pc c := by
  rw [h]
  exact State.takeException_epc _ _ _ _ _ _ _ notReturn

theorem seqrs_of_onlyCore {c : Nat} {s t : State} (h : onlyCore c s t) : t.seqrs = s.seqrs := by
  obtain ⟨same, -⟩ := h
  rw [same]

theorem seqrs_of_coresOnly {s t : State} (h : coresOnly s t) : t.seqrs = s.seqrs := by rw [h]

/-- An instruction that traps leaves every vector sequencer, its slots with it, as it was. -/
theorem trapped_seqrs {s t : State} {c code : Nat} {eaddr : DWord} (h : trapped c code eaddr s t) : t.seqrs = s.seqrs := by
  rw [h]
  calc ((s.begun c).takeException c code (s.pc c) eaddr).seqrs
      _ = (s.begun c).seqrs := seqrs_of_coresOnly (coresOnly_takeException ..)
      _ = s.seqrs := seqrs_of_onlyCore (s.begun_onlyCore c)

/-! ## Issue of an OPC that is not listed (03 R103) -/

/-- The body of an issue whose OPC is not listed is the Illegal Instruction trap alone. -/
theorem exec_vopIssue_unlisted {s : State} {k : Spindle} {opc : BitVec 10} (d a b e : SlotId)
    (issued : s.issues k.toNat [] = true) (unlisted : vopListed opc.toNat = false) :
    ∃ w t, exec (.vopIssue k opc d a b e) s = .next t ∧ trapped k.toNat 1 w s t :=
  ⟨_, exec_trapped rfl issued (if_pos (congrArg not unlisted))⟩

/-- Settles O23: the check of the OPC comes before any slot is looked at, so the trap is all the issue does. -/
theorem vopUnlistedIllegal : Obligations.VopUnlistedIllegal := by
  intro s k opc d a b e issued unlisted
  obtain ⟨w, t, ran, trap⟩ := exec_vopIssue_unlisted d a b e issued unlisted
  exact ⟨t, w, ran, trap, trapped_seqrs trap, trapped_epc trap (by decide)⟩

end Sys2Proof.Machine
end

section
/-! PROOFS. Immediate forms, shifts by an immediate, bit fields and byte permutation (08 R276, R277, R279, R280). -/

namespace Sys2Proof.Machine
open Sys2Proof

/-! ## Bit fields of numbers and of bit vectors -/

/-- A number with a field replaced, as its bits above the field, the field and the bits below it. -/
theorem setFld_eq (x lo n v : Nat) : setFld x lo n v = 2 ^ lo * (2 ^ n * (x / 2 ^ lo / 2 ^ n) + v % 2 ^ n) + x % 2 ^ lo := by
  have low := Nat.div_add_mod x (2 ^ lo)
  have high := Nat.div_add_mod (x / 2 ^ lo) (2 ^ n)
  have parts : x = 2 ^ lo * (2 ^ n * (x / 2 ^ lo / 2 ^ n)) + fld x lo n * 2 ^ lo + x % 2 ^ lo := by
    calc x = 2 ^ lo * (2 ^ n * (x / 2 ^ lo / 2 ^ n) + x / 2 ^ lo % 2 ^ n) + x % 2 ^ lo := by rw [high, low]
      _ = _ := by rw [Nat.mul_add, Nat.mul_comm _ (x / 2 ^ lo % 2 ^ n)]; rfl
  have moved : 2 ^ lo * (2 ^ n * (x / 2 ^ lo / 2 ^ n) + v % 2 ^ n) =
      2 ^ lo * (2 ^ n * (x / 2 ^ lo / 2 ^ n)) + v % 2 ^ n * 2 ^ lo := by rw [Nat.mul_add, Nat.mul_comm _ (v % 2 ^ n)]
  unfold setFld
  omega

theorem testBit_setFld (x lo n v i : Nat) :
    (setFld x lo n v).testBit i = if lo ≤ i ∧ i < lo + n then v.testBit (i - lo) else x.testBit i := by
  rw [setFld_eq, Nat.testBit_two_pow_mul_add _ (Nat.mod_lt _ (Nat.two_pow_pos lo)),
    Nat.testBit_two_pow_mul_add _ (Nat.mod_lt _ (Nat.two_pow_pos n))]
  by_cases below : i < lo
  · simp [below, Nat.not_le.mpr below]
  · by_cases inside : i < lo + n
    · have : i - lo < n := by omega
      simp [below, inside, this, Nat.le_of_not_lt below]
    · have : ¬ i - lo < n := by omega
      have same : i - lo - n + n + lo = i := by omega
      simp [below, inside, this, Nat.testBit_div_two_pow, same]

theorem getLsbD_bvSet {w : Nat} (x : BitVec w) (lo n v : Nat) {i : Nat} (h : i < w) :
    (bvSet x lo n v).getLsbD i = if lo ≤ i ∧ i < lo + n then v.testBit (i - lo) else x.getLsbD i := by
  rw [bvSet, BitVec.getLsbD_ofNat, testBit_setFld, BitVec.testBit_toNat, decide_eq_true h, Bool.true_and]

theorem getLsbD_bvSet_outside {w : Nat} (x : BitVec w) (lo n v : Nat) {i : Nat} (h : i < w) (outside : i < lo ∨ lo + n ≤ i) :
    (bvSet x lo n v).getLsbD i = x.getLsbD i := by
  rw [getLsbD_bvSet x lo n v h, if_neg (by omega)]

theorem extractLsb'_bvSet {w : Nat} (x : BitVec w) {lo n : Nat} (v : Nat) (fits : lo + n ≤ w) :
    (bvSet x lo n v).extractLsb' lo n = BitVec.ofNat n v := by
  refine BitVec.eq_of_getLsbD_eq fun i hi => ?_
  rw [BitVec.getLsbD_extractLsb', getLsbD_bvSet x lo n v (by omega), if_pos (by omega), BitVec.getLsbD_ofNat,
    Nat.add_sub_cancel_left]

theorem bvFld_eq_toNat_extractLsb' {w : Nat} (x : BitVec w) (lo n : Nat) : bvFld x lo n = (x.extractLsb' lo n).toNat := by
  rw [BitVec.extractLsb'_toNat, Nat.shiftRight_eq_div_pow]; rfl

theorem ofNat_bvFld {w : Nat} (m : Nat) (x : BitVec w) (lo n : Nat) :
    BitVec.ofNat m (bvFld x lo n) = (x.extractLsb' lo n).setWidth m := by
  rw [bvFld_eq_toNat_extractLsb', BitVec.ofNat_toNat]

theorem bitOf_eq_testBit (x i : Nat) : bitOf x i = x.testBit i := Nat.testBit_eq_decide_div_mod_eq.symm

theorem bitOf_bvFld {w : Nat} (x : BitVec w) (lo : Nat) {n i : Nat} (h : i < n) :
    bitOf (bvFld x lo n) i = x.getLsbD (lo + i) := by
  rw [bitOf_eq_testBit, bvFld_eq_toNat_extractLsb', BitVec.testBit_toNat, BitVec.getLsbD_extractLsb', decide_eq_true h,
    Bool.true_and]

theorem bvFld_mod_two_pow {w : Nat} (x : BitVec w) (lo : Nat) {n m : Nat} (h : m ≤ n) :
    bvFld x lo n % 2 ^ m = bvFld x lo m := Nat.mod_mod_of_dvd _ (Nat.pow_dvd_pow 2 h)

/-- The model's sign extension of a field's value is that of the bit vector. -/
theorem sext64_toNat {n : Nat} (x : BitVec (n + 1)) : sext64 (n + 1) x.toNat = x.signExtend 64 := by
  have value : sextNat (n + 1) x.toNat = x.toInt := by
    rw [sextNat, Nat.mod_eq_of_lt x.isLt, BitVec.toInt_eq_toNat_cond, Nat.add_sub_cancel, Nat.pow_succ]
    push_cast
    split <;> split <;> omega
  rw [sext64, value]; rfl

theorem allOnes64_decide (p : Prop) [Decidable p] : allOnes64 (decide p) = if p then BitVec.allOnes 64 else 0 := by
  by_cases h : p <;> simp [allOnes64, h]

/-! ## Bytes of a little-endian string (00 R11) -/

theorem fld_natOfBytes {l : List Byte} {j : Nat} (h : j < l.length) : fld (natOfBytes l) (8 * j) 8 = l[j].toNat := by
  induction l generalizing j with
  | nil => exact absurd h (Nat.not_lt_zero j)
  | cons b r ih =>
    have small : b.toNat < 256 := b.isLt
    cases j with
    | zero =>
      change (b.toNat + 256 * natOfBytes r) / 2 ^ 0 % 256 = b.toNat
      omega
    | succ j =>
      have inRest : j < r.length := Nat.lt_of_succ_lt_succ h
      have rest : (b.toNat + 256 * natOfBytes r) / 256 = natOfBytes r := by omega
      have split : 2 ^ (8 * (j + 1)) = 256 * 2 ^ (8 * j) := by rw [Nat.mul_succ, Nat.pow_add, Nat.mul_comm]
      calc fld (natOfBytes (b :: r)) (8 * (j + 1)) 8
          _ = (b.toNat + 256 * natOfBytes r) / 256 / 2 ^ (8 * j) % 2 ^ 8 := by
            rw [Nat.div_div_eq_div_mul, ← split]; rfl
          _ = fld (natOfBytes r) (8 * j) 8 := by rw [rest]; rfl
          _ = r[j].toNat := ih inRest

theorem extractLsb'_ofNat {w lo n : Nat} (x : Nat) (fits : lo + n ≤ w) :
    (BitVec.ofNat w x).extractLsb' lo n = BitVec.ofNat n (fld x lo n) := by
  refine BitVec.eq_of_getLsbD_eq fun i hi => ?_
  have bound : lo + i < w := by omega
  rw [BitVec.getLsbD_extractLsb', BitVec.getLsbD_ofNat, BitVec.getLsbD_ofNat, fld, Nat.testBit_mod_two_pow,
    Nat.testBit_div_two_pow, Nat.add_comm i lo]
  simp [hi, bound]

theorem extractLsb'_natOfBytes {w : Nat} {l : List Byte} {j : Nat} (h : j < l.length) (fits : 8 * j + 8 ≤ w) :
    (BitVec.ofNat w (natOfBytes l)).extractLsb' (8 * j) 8 = l[j] := by
  rw [extractLsb'_ofNat _ fits, fld_natOfBytes h, BitVec.ofNat_toNat, BitVec.setWidth_eq]

/-! ## The values written -/

theorem immOp_clti (a : DWord) (imm : Half) :
    immOp .clti a imm = if a.toInt < imm.toInt then BitVec.allOnes 64 else 0 := by
  rw [← BitVec.toInt_signExtend_of_le (x := imm) (v := 64) (by decide)]
  exact allOnes64_decide _

theorem immOp_cltui (a : DWord) (imm : Half) :
    immOp .cltui a imm = if a.toNat < (imm.signExtend 64 : DWord).toNat then BitVec.allOnes 64 else 0 := allOnes64_decide _

/-- The value of LI.Z is the immediate in its halfword. -/
theorem ofNat_mul_two_pow (x : Half) (n : Nat) : BitVec.ofNat 64 (x.toNat * 2 ^ n) = (x.setWidth 64 : DWord) <<< n := by
  refine BitVec.eq_of_toNat_eq ?_
  have wide : x.toNat % 2 ^ 64 = x.toNat := Nat.mod_eq_of_lt (by have := x.isLt; omega)
  rw [BitVec.toNat_ofNat, BitVec.toNat_shiftLeft, BitVec.toNat_setWidth, wide, Nat.shiftLeft_eq]

/-- The kinds of a shift in the order of their codes (R277). -/
theorem shift64_of_mem {kind : BitVec 2} {a v : DWord} {n : Nat}
    (h : (kind, v) ∈ [(0, a <<< n), (1, a >>> n), (2, a.sshiftRight n), (3, a.rotateRight n)]) :
    shift64 kind.toNat a n = v := by
  simp only [List.mem_cons, Prod.mk.injEq, List.not_mem_nil, or_false] at h
  obtain ⟨rfl, rfl⟩ | ⟨rfl, rfl⟩ | ⟨rfl, rfl⟩ | ⟨rfl, rfl⟩ := h <;> rfl

theorem shift32_of_mem {kind : BitVec 2} {a : DWord} {v : Word} {n : Nat}
    (h : (kind, v) ∈ [(0, (a.setWidth 32 : Word) <<< n), (1, (a.setWidth 32 : Word) >>> n),
      (2, (a.setWidth 32 : Word).sshiftRight n), (3, (a.setWidth 32 : Word).rotateRight n)]) :
    shift32 kind.toNat a n = v.setWidth 64 := by
  simp only [List.mem_cons, Prod.mk.injEq, List.not_mem_nil, or_false] at h
  obtain ⟨rfl, rfl⟩ | ⟨rfl, rfl⟩ | ⟨rfl, rfl⟩ | ⟨rfl, rfl⟩ := h <;> rfl

theorem bfOp_unsigned (a old : DWord) (len pos : Nat) : bfOp 0 a old len pos = (a.extractLsb' pos len).setWidth 64 :=
  ofNat_bvFld 64 a pos len

theorem bfOp_signed (a old : DWord) (n pos : Nat) :
    bfOp 1 a old (n + 1) pos = (a.extractLsb' pos (n + 1)).signExtend 64 := by
  rw [← sext64_toNat, ← bvFld_eq_toNat_extractLsb']; rfl

/-- Byte j of PERMB, by its selector (R280). -/
theorem extractLsb'_permb (a b : DWord) {j : Nat} (h : j < 8) :
    (permb a b).extractLsb' (8 * j) 8 =
      if b.getLsbD (4 * j + 3) then 0 else a.extractLsb' (8 * (b.extractLsb' (4 * j) 3).toNat) 8 := by
  have selected : bvFld b (4 * j) 4 % 8 = (b.extractLsb' (4 * j) 3).toNat :=
    (bvFld_mod_two_pow b (4 * j) (by decide : 3 ≤ 4)).trans (bvFld_eq_toNat_extractLsb' ..)
  rw [permb, extractLsb'_natOfBytes (by simpa using h) (by omega), List.getElem_map, List.getElem_range]
  dsimp only
  rw [bitOf_bvFld b (4 * j) (by decide : 3 < 4), selected, ofNat_bvFld, BitVec.setWidth_eq]

/-! ## What each instruction writes when it issues -/

section
variable {s : State} {c : CoreId} {rd rs1 : RegId}

theorem exec_addi_wrote (op : ImmOp) (imm : Half) (issued : s.issues c [rd, rs1] = true) :
    ∃ t, exec (.addi c op rd rs1 imm) s = .next t ∧ wrote c rd (immOp op (s.g c rs1) imm) s t :=
  exec_wrote rfl issued (by rw [State.begun_g])

theorem exec_liZ_wrote (h : BitVec 2) (imm : Half) (issued : s.issues c [rd] = true) :
    ∃ t, exec (.liZ c rd h imm) s = .next t ∧ wrote c rd ((imm.setWidth 64 : DWord) <<< (16 * h.toNat)) s t :=
  exec_wrote rfl issued (by rw [ofNat_mul_two_pow])

theorem exec_liK_wrote (h : BitVec 2) (imm : Half) (issued : s.issues c [rd] = true) :
    ∃ t, exec (.liK c rd h imm) s = .next t ∧ wrote c rd (bvSet (s.g c rd) (16 * h.toNat) 16 imm.toNat) s t :=
  exec_wrote rfl issued (by rw [State.begun_g])

theorem exec_addpc_wrote (imm : BitVec 21) (issued : s.issues c [rd] = true) :
    ∃ t, exec (.addpc c rd imm) s = .next t ∧ wrote c rd (s.pc c + imm.signExtend 64 * 4) s t :=
  exec_wrote rfl issued (by rw [State.begun_pc])

theorem exec_shli_wrote (kind : BitVec 2) (amt : BitVec 6) (issued : s.issues c [rd, rs1] = true) :
    ∃ t, exec (.shli c kind false rd rs1 amt) s = .next t ∧ wrote c rd (shift64 kind.toNat (s.g c rs1) amt.toNat) s t :=
  exec_wrote rfl issued (by rw [State.begun_g]; rfl)

/-- The 32-bit form, whose amount is below 32 (R277). -/
theorem exec_shli32_wrote (kind : BitVec 2) {amt : BitVec 6} (issued : s.issues c [rd, rs1] = true) (small : amt.toNat < 32) :
    ∃ t, exec (.shli c kind true rd rs1 amt) s = .next t ∧ wrote c rd (shift32 kind.toNat (s.g c rs1) amt.toNat) s t :=
  exec_wrote rfl issued (by simp [Nat.not_le.mpr small])

theorem exec_bfx_wrote {kind : BitVec 2} {lenM1 pos : BitVec 6} (issued : s.issues c [rd, rs1] = true) (assigned : kind ≠ 3)
    (fits : pos.toNat + lenM1.toNat + 1 ≤ 64) :
    ∃ t, exec (.bfx c kind rd rs1 lenM1 pos) s = .next t ∧
      wrote c rd (bfOp kind.toNat (s.g c rs1) (s.g c rd) (lenM1.toNat + 1) pos.toNat) s t := by
  have legal : ¬ (decide (kind = 3) || decide (64 < pos.toNat + (lenM1.toNat + 1))) = true := by
    rw [Bool.or_eq_true, decide_eq_true_iff, decide_eq_true_iff]
    exact not_or.mpr ⟨assigned, Nat.not_lt.mpr fits⟩
  exact exec_wrote rfl issued ((if_neg legal).trans (by rw [State.begun_g, State.begun_g]))

theorem exec_permb_wrote {rs2 : RegId} (issued : s.issues c [rd, rs1, rs2] = true) :
    ∃ t, exec (.permb c rd rs1 rs2) s = .next t ∧ wrote c rd (permb (s.g c rs1) (s.g c rs2)) s t :=
  exec_wrote rfl issued (by rw [State.begun_g, State.begun_g])

/-- LI.K replaces halfword h of rd and keeps the others (R277). -/
theorem exec_liK_halfword (h : BitVec 2) (imm : Half) (issued : s.issues c [rd] = true) :
    ∃ t v, exec (.liK c rd h imm) s = .next t ∧ wrote c rd v s t ∧ v.extractLsb' (16 * h.toNat) 16 = imm ∧
      ∀ i, i < 64 → (i < 16 * h.toNat ∨ 16 * h.toNat + 16 ≤ i) → v.getLsbD i = (s.g c rd).getLsbD i := by
  obtain ⟨t, ran, written⟩ := exec_liK_wrote h imm issued
  have inWord : 16 * h.toNat + 16 ≤ 64 := by have := h.isLt; omega
  refine ⟨t, _, ran, written, ?_, fun i hi outside => getLsbD_bvSet_outside _ _ _ _ hi outside⟩
  rw [extractLsb'_bvSet _ _ inWord, BitVec.ofNat_toNat, BitVec.setWidth_eq]

/-- A bit-field insert replaces the field in rd by the low bits of rs1 and keeps the other bits (R279). -/
theorem exec_bfx_insert {lenM1 pos : BitVec 6} (issued : s.issues c [rd, rs1] = true)
    (fits : pos.toNat + lenM1.toNat + 1 ≤ 64) :
    ∃ t v, exec (.bfx c 2 rd rs1 lenM1 pos) s = .next t ∧ wrote c rd v s t ∧
      v.extractLsb' pos.toNat (lenM1.toNat + 1) = (s.g c rs1).extractLsb' 0 (lenM1.toNat + 1) ∧
      ∀ i, i < 64 → (i < pos.toNat ∨ pos.toNat + lenM1.toNat < i) → v.getLsbD i = (s.g c rd).getLsbD i := by
  obtain ⟨t, ran, written⟩ := exec_bfx_wrote (kind := 2) issued (by decide) fits
  exact ⟨t, _, ran, written, extractLsb'_bvSet _ _ fits, fun i hi outside => getLsbD_bvSet_outside _ _ _ _ hi outside⟩

/-- PERMB writes to rd the byte of rs1 that each selector names, or 0 (R280). -/
theorem exec_permb_bytes {rs2 : RegId} (issued : s.issues c [rd, rs1, rs2] = true) :
    ∃ t v, exec (.permb c rd rs1 rs2) s = .next t ∧ wrote c rd v s t ∧
      ∀ j, j < 8 → v.extractLsb' (8 * j) 8 =
        if (s.g c rs2).getLsbD (4 * j + 3) then 0
        else (s.g c rs1).extractLsb' (8 * ((s.g c rs2).extractLsb' (4 * j) 3).toNat) 8 := by
  obtain ⟨t, ran, written⟩ := exec_permb_wrote issued
  exact ⟨t, _, ran, written, fun j hj => extractLsb'_permb _ _ hj⟩

end

/-- Settles O3: each form runs its operation on the state in which it issues, and the operation's value is the manual's. -/
theorem immediatesShiftsAndFields : Obligations.ImmediatesShiftsAndFields := by
  refine ⟨fun s c rd rs1 imm imm21 h => ⟨fun issued => ?_, fun issued => ?_⟩,
    fun s c rd rs1 rs2 amt pos lenM1 => ⟨fun issued => ⟨?_, ?_, fun fits => ?_⟩, exec_permb_bytes⟩⟩
  · have written (op : ImmOp) := exec_addi_wrote op imm issued
    exact ⟨written .addi, written .andi, written .ori, written .xori, immOp_clti .. ▸ written .clti,
      immOp_cltui .. ▸ written .cltui⟩
  · exact ⟨exec_liZ_wrote h imm issued, exec_liK_halfword h imm issued, exec_addpc_wrote imm21 issued⟩
  · exact fun kind v named => shift64_of_mem named ▸ exec_shli_wrote kind amt issued
  · exact fun kind v small named => shift32_of_mem named ▸ exec_shli32_wrote kind issued small
  · have extracted (kind : BitVec 2) (assigned : kind ≠ 3) := exec_bfx_wrote issued assigned fits
    exact ⟨bfOp_unsigned .. ▸ extracted 0 (by decide), bfOp_signed .. ▸ extracted 1 (by decide), exec_bfx_insert issued fits⟩

end Sys2Proof.Machine
end
